-- ==== Sys2Proof/Word.lean ====
section
/-! DEFINITION. The word types of the LC-3 (00_scope.md R7, R9, R10). -/

namespace Sys2Proof

/-- A 16-bit word: a register, an address, an instruction or the contents of one memory location
(R7). Bit 15 is the most significant (R9); `+` and `-` wrap modulo 2^16 (R10). -/
abbrev Word := BitVec 16

/-- A character of the input and output streams (60_exceptions.md R226). -/
abbrev Byte := BitVec 8

end Sys2Proof
end

