-- ==== Sys2Proof/Config.lean ====
section
/-! DEFINITION. The named parameters of 00_scope.md R8: those the spec decides have a value here, those it
leaves open are constants without a body, so that no proof can depend on what they are. The three that
describe what the host attaches (TRAP_MODEL, DEVICE_MAP, INTERRUPT_SOURCES) are types here and fields of
State. -/

namespace Sys2Proof

/-! ### Parameters that describe the platform (fields of State) -/

/-- TRAP_MODEL (60_exceptions.md R226): who gives TRAP x21, x23 and x25 their effect. -/
inductive TrapModel where
  | hostService  -- the host performs the whole routine in one step (R227 to R229)
  | vectored     -- the PC goes through the trap table (42_control.md R190)
deriving DecidableEq, Repr

/-- DEVICE_MAP (20_memory.md R78): which addresses belong to device registers. -/
inductive DeviceMap where
  | empty      -- none: every address is plain memory, the default of R8
  | customary  -- the five registers of the table of R78
deriving DecidableEq, Repr

/-- INTERRUPT_SOURCES (60_exceptions.md R216, R217). -/
inductive InterruptSources where
  | none      -- no interrupt ever arrives, the decision of R216
  | keyboard  -- the one customary source of R217
deriving DecidableEq, Repr

/-! ### Parameters the spec decides -/

/-- NONCANONICAL (30_encoding.md R104): what a word with a valid opcode and wrong fixed bits is. -/
inductive NonCanonicalPolicy where
  | refuse  -- the word has no meaning
  | ignore  -- the fixed bits are not looked at
deriving DecidableEq, Repr

/-- STACK_SWITCH (60_exceptions.md R221). -/
inductive StackSwitch where
  | savedSp  -- R6 is exchanged with a saved stack pointer when the privilege mode changes
  | none     -- it is not
deriving DecidableEq, Repr

/-- An exception (60_exceptions.md R215 lists both; R214: there are no others). -/
inductive ExceptionCause where
  | privilegeModeViolation  -- RTI in User mode (R212)
  | illegalOpcode           -- a word with opcode 1101 (R213)
deriving DecidableEq, Repr

/-- The two values of TRAPVEC_EXT (42_control.md R191). -/
inductive VectorExtension where
  | sext  -- sign-extended
  | zext  -- zero-extended
deriving DecidableEq, Repr

/-- LEA_SETS_CC = true for this hardware (41_data_movement.md R163, 90_conflicts.md C1). -/
def Config.leaSetsCC : Bool := true

/-- NONCANONICAL = refuse (R104, decision D13). -/
def Config.nonCanonical : NonCanonicalPolicy := .refuse

/-- STACK_SWITCH = saved_sp (R221, decision D16). DESIGN CHOICE of the spec, unsafe: log 10. -/
def Config.stackSwitch : StackSwitch := .savedSp

/-- TRAPVEC_EXT = sext, the value of record (00_scope.md R8, 42_control.md R191, 90_conflicts.md C13, decision D5).
DESIGN CHOICE of the spec, unsafe: log 5. -/
def Config.trapVecExt : VectorExtension := .sext

/-- EXC_VECTOR_BASE = x0100 (60_exceptions.md R222, decision D17). Unsafe: log 14. -/
def Config.excVectorBase : Word := 0x0100

/-- EXC_CODE_PRIV = x00 and EXC_CODE_ILLEGAL = x01 (60_exceptions.md R215, decision D17). Unsafe: log 14. -/
def Config.excCode : ExceptionCause → Byte
  | .privilegeModeViolation => 0x00
  | .illegalOpcode => 0x01

/-- The vector of the customary keyboard interrupt (60_exceptions.md R217). -/
def Config.keyboardVector : Byte := 0x80

/-- The priority level of the customary keyboard interrupt (60_exceptions.md R217). -/
def Config.keyboardLevel : BitVec 3 := 4

/-! ### Parameters and values left open: constants without a body -/

/-- The two values of EXC_SAVED_PC (60_exceptions.md R223). -/
inductive SavedPc where
  | this  -- the address of the instruction that caused the exception
  | next  -- the address of the following instruction
deriving DecidableEq, Repr, Inhabited

/-- One of the three condition codes (10_state.md R27). -/
inductive ConditionCode where
  | n
  | z
  | p
deriving DecidableEq, Repr, Inhabited

/-- EXC_SAVED_PC (R223): which PC each exception pushes. Free value, safe: log 6. -/
opaque Config.excSavedPc : ExceptionCause → SavedPc

/-- IN_ECHO (60_exceptions.md R228): what TRAP x23 writes to the output for the character it reads.
Free value, safe: log 7. -/
opaque Config.inEcho : Byte → List Byte

/-- The condition code that a host service leaves set, one draw per service (60_exceptions.md R226).
Free value, safe: log 8. -/
opaque Config.serviceCode : Nat → ConditionCode

/-- What the location at an address holds before anything has written it (20_memory.md R68).
Free value, safe: log 3. -/
opaque Config.unwrittenWord : Nat → Word

/-- What a read of a device register answers where R78 gives no answer (DDR is write only), one draw
per access. Free value, safe: log 18. -/
opaque Config.unstatedDeviceWord : Nat → Word

/-- Whether the keyboard presents its next character at this access (20_memory.md R78 gives no time).
Free value, safe: log 19. -/
opaque Config.keyboardDelivers : Nat → Bool

/-- Whether the display becomes ready again at this access (20_memory.md R78 gives no time).
Free value, safe: log 19. -/
opaque Config.displayRecovers : Nat → Bool

end Sys2Proof
end

