-- ==== Sys2Proof/Syntax.lean ====
section
/-! DEFINITION. The instructions: one constructor for each row of spec/opcode_table.json (00_scope.md R2,
30_encoding.md R100, R109, R116). Numbers are held as the assembler writes them, signed immediates and
offsets as integers (R93 to R96), the trap vector as a natural number (R97); WellFormed.lean says which
of them fit their fields (R115). -/

namespace Sys2Proof

/-- The eight general registers (10_state.md R20). -/
inductive Reg where
  | r0 | r1 | r2 | r3 | r4 | r5 | r6 | r7
deriving DecidableEq, Repr

/-- The rows of the opcode table. -/
inductive Instr where
  /-- BR: the condition bits n, z, p (R98) and PCoffset9 (42_control.md R180). -/
  | br (n z p : Bool) (pcOffset9 : Int)
  /-- ADD, register mode (40_arithmetic.md R131). -/
  | addReg (dr sr1 sr2 : Reg)
  /-- ADD, immediate mode (40_arithmetic.md R132). -/
  | addImm (dr sr1 : Reg) (imm5 : Int)
  /-- LD (41_data_movement.md R154). -/
  | ld (dr : Reg) (pcOffset9 : Int)
  /-- ST (41_data_movement.md R157). -/
  | st (sr : Reg) (pcOffset9 : Int)
  /-- JSR (42_control.md R186). -/
  | jsr (pcOffset11 : Int)
  /-- JSRR (42_control.md R187). -/
  | jsrr (baseR : Reg)
  /-- AND, register mode (40_arithmetic.md R133). -/
  | andReg (dr sr1 sr2 : Reg)
  /-- AND, immediate mode (40_arithmetic.md R134). -/
  | andImm (dr sr1 : Reg) (imm5 : Int)
  /-- LDR (41_data_movement.md R156). -/
  | ldr (dr baseR : Reg) (offset6 : Int)
  /-- STR (41_data_movement.md R159). -/
  | str (sr baseR : Reg) (offset6 : Int)
  /-- RTI (42_control.md R194). -/
  | rti
  /-- NOT (40_arithmetic.md R130). -/
  | not (dr sr : Reg)
  /-- LDI (41_data_movement.md R155). -/
  | ldi (dr : Reg) (pcOffset9 : Int)
  /-- STI (41_data_movement.md R158). -/
  | sti (sr : Reg) (pcOffset9 : Int)
  /-- JMP; RET is JMP R7 (42_control.md R184, R185). -/
  | jmp (baseR : Reg)
  /-- The unused opcode 1101 (30_encoding.md R103); bits 11:0 are any bits and play no part. -/
  | unusedOpcode (anyBits : BitVec 12)
  /-- LEA (41_data_movement.md R160). -/
  | lea (dr : Reg) (pcOffset9 : Int)
  /-- TRAP (42_control.md R190). -/
  | trap (trapVect8 : Nat)
deriving DecidableEq, Repr

end Sys2Proof
end

