-- ==== Sys2Proof/WellFormed.lean ====
section
/-! DEFINITION. Which instructions have an encoding: every number fits its field (30_encoding.md R93 to R97,
R115). -/

namespace Sys2Proof

/-- `v` fits a two's complement field of `bits` bits. -/
abbrev fitsSigned (bits : Nat) (v : Int) : Prop := -(2 : Int) ^ (bits - 1) ≤ v ∧ v < (2 : Int) ^ (bits - 1)

/-- `v` fits an unsigned field of `bits` bits. -/
abbrev fitsUnsigned (bits : Nat) (v : Nat) : Prop := v < 2 ^ bits

/-- The instruction has an encoding: imm5 is in -16..15 (R93), offset6 in -32..31 (R94), PCoffset9 in
-256..255 (R95), PCoffset11 in -1024..1023 (R96), trapvect8 in x00..xFF (R97). Every other operand
fits its field by its type. -/
def Instr.wellFormed (i : Instr) : Bool :=
  match i with
  | .br _ _ _ off => decide (fitsSigned 9 off)
  | .addReg _ _ _ => true
  | .addImm _ _ imm => decide (fitsSigned 5 imm)
  | .ld _ off => decide (fitsSigned 9 off)
  | .st _ off => decide (fitsSigned 9 off)
  | .jsr off => decide (fitsSigned 11 off)
  | .jsrr _ => true
  | .andReg _ _ _ => true
  | .andImm _ _ imm => decide (fitsSigned 5 imm)
  | .ldr _ _ off => decide (fitsSigned 6 off)
  | .str _ _ off => decide (fitsSigned 6 off)
  | .rti => true
  | .not _ _ => true
  | .ldi _ off => decide (fitsSigned 9 off)
  | .sti _ off => decide (fitsSigned 9 off)
  | .jmp _ => true
  | .unusedOpcode _ => true
  | .lea _ off => decide (fitsSigned 9 off)
  | .trap vector => decide (fitsUnsigned 8 vector)

/-- The check as a proposition. -/
abbrev Instr.WellFormed (i : Instr) : Prop := i.wellFormed = true

end Sys2Proof
end

