-- ==== Sys2Proof/Decode.lean ====
section
/-! DEFINITION. The decoder (30_encoding.md R90 to R107) and, after it, the encoder, each written from the
encoding tables of R91, R101 and R102. -/

namespace Sys2Proof

/-! ### Fields of an instruction word (30_encoding.md R92 to R98) -/

/-- A register field holds the register's number in plain binary (R92). -/
def Reg.ofBits (b : BitVec 3) : Reg :=
  match b.toNat with
  | 0 => .r0
  | 1 => .r1
  | 2 => .r2
  | 3 => .r3
  | 4 => .r4
  | 5 => .r5
  | 6 => .r6
  | _ => .r7

/-- The number a register field holds for a register (R92). -/
def Reg.toBits : Reg → BitVec 3
  | .r0 => 0b000
  | .r1 => 0b001
  | .r2 => 0b010
  | .r3 => 0b011
  | .r4 => 0b100
  | .r5 => 0b101
  | .r6 => 0b110
  | .r7 => 0b111

/-- The opcode, `ir[15:12]` (R90). -/
def opcodeField (w : Word) : BitVec 4 := w.extractLsb' 12 4

/-- The register field `ir[11:9]`: DR, or SR of a store (R92). -/
def regField11 (w : Word) : Reg := .ofBits (w.extractLsb' 9 3)

/-- The register field `ir[8:6]`: SR1, SR of NOT, or BaseR (R92). -/
def regField8 (w : Word) : Reg := .ofBits (w.extractLsb' 6 3)

/-- The register field `ir[2:0]`: SR2 (R92). -/
def regField2 (w : Word) : Reg := .ofBits (w.extractLsb' 0 3)

/-- `imm5 = ir[4:0]`, two's complement (R93). -/
def imm5Field (w : Word) : Int := (w.extractLsb' 0 5).toInt

/-- `offset6 = ir[5:0]`, two's complement (R94). -/
def offset6Field (w : Word) : Int := (w.extractLsb' 0 6).toInt

/-- `PCoffset9 = ir[8:0]`, two's complement (R95). -/
def pcOffset9Field (w : Word) : Int := (w.extractLsb' 0 9).toInt

/-- `PCoffset11 = ir[10:0]`, two's complement (R96). -/
def pcOffset11Field (w : Word) : Int := (w.extractLsb' 0 11).toInt

/-- `trapvect8 = ir[7:0]`, unsigned (R97). -/
def trapVect8Field (w : Word) : Nat := (w.extractLsb' 0 8).toNat

/-! ### The decoder -/

/-- What decoding a word gives. -/
inductive Decoded where
  /-- The word encodes this instruction. -/
  | instruction (i : Instr)
  /-- The opcode is valid but a fixed bit differs from the encoding (R104). -/
  | nonCanonical (w : Word)
deriving DecidableEq, Repr

/-- Accept `i` if the fixed bits of the word `w` are as the encoding has them, or if the policy does not
look at them (R104). -/
def checkFixed (policy : NonCanonicalPolicy) (w : Word) (fixedBitsAgree : Bool) (i : Instr) : Decoded :=
  if fixedBitsAgree || policy == .ignore then .instruction i else .nonCanonical w

/-- Decoding by opcode and mode bit (R100), with the fixed bits of R104 checked as the policy says. -/
def decodeWith (policy : NonCanonicalPolicy) (w : Word) : Decoded :=
  match (opcodeField w).toNat with
  | 0b0000 => .instruction (.br (w.getLsbD 11) (w.getLsbD 10) (w.getLsbD 9) (pcOffset9Field w))
  | 0b0001 =>
    if w.getLsbD 5 then
      .instruction (.addImm (regField11 w) (regField8 w) (imm5Field w))
    else
      checkFixed policy w (w.extractLsb' 3 2 == 0b00) (.addReg (regField11 w) (regField8 w) (regField2 w))
  | 0b0010 => .instruction (.ld (regField11 w) (pcOffset9Field w))
  | 0b0011 => .instruction (.st (regField11 w) (pcOffset9Field w))
  | 0b0100 =>
    if w.getLsbD 11 then
      .instruction (.jsr (pcOffset11Field w))
    else
      checkFixed policy w (w.extractLsb' 9 2 == 0b00 && w.extractLsb' 0 6 == 0b000000) (.jsrr (regField8 w))
  | 0b0101 =>
    if w.getLsbD 5 then
      .instruction (.andImm (regField11 w) (regField8 w) (imm5Field w))
    else
      checkFixed policy w (w.extractLsb' 3 2 == 0b00) (.andReg (regField11 w) (regField8 w) (regField2 w))
  | 0b0110 => .instruction (.ldr (regField11 w) (regField8 w) (offset6Field w))
  | 0b0111 => .instruction (.str (regField11 w) (regField8 w) (offset6Field w))
  | 0b1000 => checkFixed policy w (w.extractLsb' 0 12 == 0) .rti
  | 0b1001 => checkFixed policy w (w.extractLsb' 0 6 == 0b111111) (.not (regField11 w) (regField8 w))
  | 0b1010 => .instruction (.ldi (regField11 w) (pcOffset9Field w))
  | 0b1011 => .instruction (.sti (regField11 w) (pcOffset9Field w))
  | 0b1100 =>
    checkFixed policy w (w.extractLsb' 9 3 == 0b000 && w.extractLsb' 0 6 == 0b000000) (.jmp (regField8 w))
  | 0b1101 => .instruction (.unusedOpcode (w.extractLsb' 0 12))
  | 0b1110 => .instruction (.lea (regField11 w) (pcOffset9Field w))
  | _ => checkFixed policy w (w.extractLsb' 8 4 == 0b0000) (.trap (trapVect8Field w))

/-- The decoder of this hardware: NONCANONICAL = refuse (R104, decision D13; log 12). -/
def decode (w : Word) : Decoded := decodeWith Config.nonCanonical w

/-- The instruction read from a table row's bits: every instruction is one 16-bit word (R90), so the
low `nbits` bits of `w`, the rest zero, are the word. -/
def decodeTableWord (nbits w : Nat) : Option Instr :=
  match decode (BitVec.ofNat 16 (w % 2 ^ nbits)) with
  | .instruction i => some i
  | .nonCanonical _ => none

/-! ### The encoder -/

/-- A field of an instruction word: the value with its bit 0 at bit `lo` of the word (00_scope.md R9). -/
def fieldAt {width : Nat} (lo : Nat) (value : BitVec width) : Word := value.setWidth 16 <<< lo

/-- The word of a well-formed instruction (R91, R101, R102), fields from bit 15 down. -/
def encode : Instr → Word
  | .br n z p off =>
    fieldAt 12 0b0000#4 ||| fieldAt 11 (BitVec.ofBool n) ||| fieldAt 10 (BitVec.ofBool z) |||
      fieldAt 9 (BitVec.ofBool p) ||| fieldAt 0 (BitVec.ofInt 9 off)
  | .addReg dr sr1 sr2 =>
    fieldAt 12 0b0001#4 ||| fieldAt 9 dr.toBits ||| fieldAt 6 sr1.toBits ||| fieldAt 3 0b000#3 |||
      fieldAt 0 sr2.toBits
  | .addImm dr sr1 imm =>
    fieldAt 12 0b0001#4 ||| fieldAt 9 dr.toBits ||| fieldAt 6 sr1.toBits ||| fieldAt 5 0b1#1 |||
      fieldAt 0 (BitVec.ofInt 5 imm)
  | .ld dr off => fieldAt 12 0b0010#4 ||| fieldAt 9 dr.toBits ||| fieldAt 0 (BitVec.ofInt 9 off)
  | .st sr off => fieldAt 12 0b0011#4 ||| fieldAt 9 sr.toBits ||| fieldAt 0 (BitVec.ofInt 9 off)
  | .jsr off => fieldAt 12 0b0100#4 ||| fieldAt 11 0b1#1 ||| fieldAt 0 (BitVec.ofInt 11 off)
  | .jsrr base =>
    fieldAt 12 0b0100#4 ||| fieldAt 11 0b0#1 ||| fieldAt 9 0b00#2 ||| fieldAt 6 base.toBits |||
      fieldAt 0 0b000000#6
  | .andReg dr sr1 sr2 =>
    fieldAt 12 0b0101#4 ||| fieldAt 9 dr.toBits ||| fieldAt 6 sr1.toBits ||| fieldAt 3 0b000#3 |||
      fieldAt 0 sr2.toBits
  | .andImm dr sr1 imm =>
    fieldAt 12 0b0101#4 ||| fieldAt 9 dr.toBits ||| fieldAt 6 sr1.toBits ||| fieldAt 5 0b1#1 |||
      fieldAt 0 (BitVec.ofInt 5 imm)
  | .ldr dr base off =>
    fieldAt 12 0b0110#4 ||| fieldAt 9 dr.toBits ||| fieldAt 6 base.toBits ||| fieldAt 0 (BitVec.ofInt 6 off)
  | .str sr base off =>
    fieldAt 12 0b0111#4 ||| fieldAt 9 sr.toBits ||| fieldAt 6 base.toBits ||| fieldAt 0 (BitVec.ofInt 6 off)
  | .rti => fieldAt 12 0b1000#4 ||| fieldAt 0 0b000000000000#12
  | .not dr sr =>
    fieldAt 12 0b1001#4 ||| fieldAt 9 dr.toBits ||| fieldAt 6 sr.toBits ||| fieldAt 0 0b111111#6
  | .ldi dr off => fieldAt 12 0b1010#4 ||| fieldAt 9 dr.toBits ||| fieldAt 0 (BitVec.ofInt 9 off)
  | .sti sr off => fieldAt 12 0b1011#4 ||| fieldAt 9 sr.toBits ||| fieldAt 0 (BitVec.ofInt 9 off)
  | .jmp base =>
    fieldAt 12 0b1100#4 ||| fieldAt 9 0b000#3 ||| fieldAt 6 base.toBits ||| fieldAt 0 0b000000#6
  | .unusedOpcode anyBits => fieldAt 12 0b1101#4 ||| fieldAt 0 anyBits
  | .lea dr off => fieldAt 12 0b1110#4 ||| fieldAt 9 dr.toBits ||| fieldAt 0 (BitVec.ofInt 9 off)
  | .trap vector => fieldAt 12 0b1111#4 ||| fieldAt 8 0b0000#4 ||| fieldAt 0 (BitVec.ofNat 8 vector)

end Sys2Proof
end

