-- ==== Sys2Proof/Machine/State.lean ====
section
/-! DEFINITION. The state of the machine, why a step can stop, and the state after reset (10_state.md,
70_reset_and_hazards.md). Types and the reset state only: what reads and writes them is in the other
files of Machine/. -/

namespace Sys2Proof.Machine

/-- The eight general registers, 16 bits each (10_state.md R20). -/
structure Regs where
  r0 : Word
  r1 : Word
  r2 : Word
  r3 : Word
  r4 : Word
  r5 : Word
  r6 : Word
  r7 : Word
deriving DecidableEq, Repr

/-- One written memory location: its address and its 16 bits (20_memory.md R61, R62: memory is a map from
addresses to words, not bytes; log 4). -/
abbrev MemoryCell := Nat × Word

/-- The locations that the loader or a store has written, addresses strictly rising. A location that is
not listed has never been written (20_memory.md R68; log 3, log 4). -/
abbrev Memory := List MemoryCell

/-- What the host attaches to the processor: the three parameters of 00_scope.md R8 that the spec describes in
more than one value. No step changes them. The model's own field: log 9. -/
structure Platform where
  deviceMap : DeviceMap
  interruptSources : InterruptSources
  trapModel : TrapModel
deriving DecidableEq, Repr

/-- The machine's state. -/
structure State where
  /-- R0 to R7 (R20). -/
  regs : Regs
  /-- The program counter (R23). -/
  pc : Word
  /-- The processor status register: bit 15 privilege mode, bits 10:8 priority, bits 2:0 N, Z, P (R31). -/
  psr : Word
  /-- Saved_SSP (R34). -/
  savedSsp : Word
  /-- Saved_USP (R34). -/
  savedUsp : Word
  /-- IR, the instruction being executed (R35; log 21). -/
  ir : Word
  /-- MAR, the address of the latest memory access (R36; log 21). -/
  mar : Word
  /-- MDR, the datum of the latest memory access (R36; log 21). -/
  mdr : Word
  /-- The memory (20_memory.md R60, R61). -/
  mem : Memory
  /-- The host's input stream, first character first (60_exceptions.md R226). -/
  input : List Byte
  /-- The host's output stream, first character first (60_exceptions.md R226). -/
  output : List Byte
  /-- The run has ended as Halted (60_exceptions.md R229; log 17). -/
  halted : Bool
  /-- KBSR, keyboard status (20_memory.md R78; log 18). -/
  kbsr : Word
  /-- KBDR, keyboard data (R78). -/
  kbdr : Word
  /-- DSR, display status (R78). -/
  dsr : Word
  /-- DDR, display data (R78). -/
  ddr : Word
  /-- MCR, machine control (R78; log 28). -/
  mcr : Word
  /-- TRAP_MODEL, DEVICE_MAP, INTERRUPT_SOURCES (00_scope.md R8; log 9). -/
  platform : Platform
  /-- Which draw of a free value comes next. The model's own field (log 8, log 19). -/
  freeIndex : Nat
deriving DecidableEq, Repr

/-- Why a step stops other than by a refusal. An exception of the LC-3 is taken, and is a next state
(60_exceptions.md R219), once software has set up its vector table entry; until then it is the fault `exception`. -/
inductive Fault where
  /-- Raised by `step` in a state that TRAP x25 has halted: the outcome `Halted` of 70_reset_and_hazards.md R253.
  Not an error; the final state is the state asked to step. Safe. -/
  | halted
  /-- Raised by RTI in User mode and by opcode 1101 when the exception's vector table entry has never been written: the
  outcome `Fault(e)` of R253, which R252 gives an exception that is not set up. It carries the machine state at the
  raise (60_exceptions.md R223): the one after the fetch, PC incremented, nothing pushed. Safe (log 29). -/
  | exception (cause : ExceptionCause) (atRaise : State)
  /-- Raised by TRAP x23 as a host service when the input stream is empty: the outcome `Stuck(input)` of R253.
  No step is taken; the state before the fetch stands. Safe. -/
  | waitingForInput
  /-- Raised by `step` when the customary MCR is attached and its clock-enable bit is clear: the processor is
  stopped (20_memory.md R78; log 28). Safe. -/
  | clockStopped
deriving DecidableEq, Repr

/-- Why a step is refused: the outcome `Refused(w)` of 70_reset_and_hazards.md R253. -/
inductive Refusal where
  /-- Raised by `exec` for an instruction that has no meaning in this model; no arm raises it. Safe. -/
  | notModelled (mnemonic : String)
  /-- Raised by `step` when the word fetched has a valid opcode but a fixed bit that differs from the encoding
  (30_encoding.md R104, NONCANONICAL = refuse; log 12). Safe. -/
  | nonCanonical (w : Word)
deriving DecidableEq, Repr

/-- The machine right after reset. The spec gives no reset value (R46, R250) but that exactly one condition
code is set, that no interrupt is pending, and the defaults of 00_scope.md R8 for the platform: every other
value is the one log 1 names (unsafe). -/
def State.reset : State where
  regs := { r0 := 0, r1 := 0, r2 := 0, r3 := 0, r4 := 0, r5 := 0, r6 := 0, r7 := 0 }
  pc := 0x3000
  psr := 0x8002
  savedSsp := 0x3000
  savedUsp := 0x0000
  ir := 0x0000
  mar := 0x0000
  mdr := 0x0000
  mem := []
  input := []
  output := []
  halted := false
  kbsr := 0x0000
  kbdr := 0x0000
  dsr := 0x8000
  ddr := 0x0000
  mcr := 0x8000
  platform := { deviceMap := .empty, interruptSources := .none, trapModel := .hostService }
  freeIndex := 0

end Sys2Proof.Machine
end

