-- ==== Sys2Proof/Machine/Memory.lean ====
section
/-! DEFINITION. Memory as a canonical list of written locations (20_memory.md R60, R61, R65, R66, R68). -/

namespace Sys2Proof.Machine

/-- The canonical form: addresses strictly rising and inside the 2^16 locations (R60). An unlisted location
holds no written value (R68), so no listed word can be equal to what an unlisted one holds. -/
abbrev Memory.wf (m : Memory) : Prop :=
  (m.map Prod.fst).Pairwise (· < ·) ∧ ∀ cell ∈ m, cell.1 < 2 ^ 16

/-- The word written most recently to an address, if any (R65). -/
def Memory.lookup : Memory → Nat → Option Word
  | [], _ => none
  | (k, v) :: rest, a => if a = k then some v else Memory.lookup rest a

/-- The memory after a word is written to an address (R66). -/
def Memory.insert : Memory → Nat → Word → Memory
  | [], a, v => [(a, v)]
  | (k, u) :: rest, a, v =>
    if a < k then (a, v) :: (k, u) :: rest
    else if a = k then (a, v) :: rest
    else (k, u) :: Memory.insert rest a v

/-- The contents of a memory location, device registers left aside: the word written last, or a free value
where nothing has written (R65, R68; log 3). -/
def State.peek (s : State) (a : Word) : Word :=
  (Memory.lookup s.mem a.toNat).getD (Config.unwrittenWord a.toNat)

/-- Put a word into a memory location, device registers left aside (R66). -/
def State.poke (s : State) (a v : Word) : State :=
  { s with mem := Memory.insert s.mem a.toNat v }

end Sys2Proof.Machine
end

