-- ==== Sys2Proof/Machine/Devices.lean ====
section
/-! DEFINITION. The device registers of the customary DEVICE_MAP (20_memory.md R77, R78). They answer only when
the platform has them (R8: none by default); what R78 leaves open is log 18, log 19, log 26, log 28. -/

namespace Sys2Proof.Machine

/-- The device registers of the table of R78. -/
inductive DeviceReg where
  | kbsr  -- keyboard status
  | kbdr  -- keyboard data
  | dsr   -- display status
  | ddr   -- display data
  | mcr   -- machine control
deriving DecidableEq, Repr

/-- The device register that owns an address, if any (R78). -/
def deviceAt (devices : DeviceMap) (a : Word) : Option DeviceReg :=
  match devices with
  | .empty => none
  | .customary =>
    if a = 0xFE00 then some .kbsr
    else if a = 0xFE02 then some .kbdr
    else if a = 0xFE04 then some .dsr
    else if a = 0xFE06 then some .ddr
    else if a = 0xFFFE then some .mcr
    else none

/-! ### What the devices do on their own (R69: between accesses) -/

/-- When no character is waiting and the input stream has one, the keyboard may present it: KBDR holds it
with bits 15:8 zero and KBSR[15] is set (R78). When it does is a free value (log 19). -/
def State.keyboardEvent (s : State) : State :=
  match s.input with
  | [] => s
  | c :: rest =>
    if !s.kbsr.getLsbD 15 && Config.keyboardDelivers s.freeIndex then
      { s with kbdr := c.setWidth 16, kbsr := s.kbsr ||| 0x8000, input := rest }
    else s

/-- A display that is busy may become ready again: DSR[15] is set (R78). When it does is a free value
(log 19). -/
def State.displayEvent (s : State) : State :=
  if !s.dsr.getLsbD 15 && Config.displayRecovers s.freeIndex then { s with dsr := s.dsr ||| 0x8000 } else s

/-- What the devices do before one access of the processor. Nothing when none is attached. -/
def State.deviceTick (s : State) : State :=
  match s.platform.deviceMap with
  | .empty => s
  | .customary => { s.keyboardEvent.displayEvent with freeIndex := s.freeIndex + 1 }

/-! ### Reads and writes of a device register -/

/-- The answer of a device register to a read (R78). DDR is write only: its answer is a free value (log 18). -/
def State.deviceValue (s : State) : DeviceReg → Word
  | .kbsr => s.kbsr
  | .kbdr => s.kbdr
  | .dsr => s.dsr
  | .ddr => Config.unstatedDeviceWord s.freeIndex
  | .mcr => s.mcr

/-- The side effect of a read of a device register: reading KBDR clears KBSR[15] (R78). -/
def State.deviceReadEffect (s : State) : DeviceReg → State
  | .kbdr => { s with kbsr := s.kbsr &&& 0x7FFF }
  | .kbsr | .dsr | .ddr | .mcr => s

/-- A write of a device register (R78): bit 14 of a status register is the interrupt enable, bit 15 is the
device's own; a write of DDR outputs the low 8 bits and makes the display busy; KBDR takes no write (log 18). -/
def State.deviceWrite (s : State) (v : Word) : DeviceReg → State
  | .kbsr => { s with kbsr := (s.kbsr &&& 0xBFFF) ||| (v &&& 0x4000) }
  | .kbdr => s
  | .dsr => { s with dsr := (s.dsr &&& 0xBFFF) ||| (v &&& 0x4000) }
  | .ddr => { s with ddr := v, output := s.output ++ [v.setWidth 8], dsr := s.dsr &&& 0x7FFF }
  | .mcr => { s with mcr := v }

/-! ### Stopping and requesting -/

/-- The clock runs unless the customary MCR is attached and its bit 15 is clear (R78; log 28). -/
def State.clockEnabled (s : State) : Bool :=
  match s.platform.deviceMap with
  | .empty => true
  | .customary => s.mcr.getLsbD 15

end Sys2Proof.Machine
end

