-- ==== Sys2Proof/Machine/Flags.lean ====
section
/-! DEFINITION. The processor status register and its fields (10_state.md R27 to R32): the condition codes,
the privilege mode, the priority level. -/

namespace Sys2Proof.Machine

/-! ### Reading the fields -/

/-- Condition code N, PSR[2] (R27, R31). -/
def State.codeN (s : State) : Bool := s.psr.getLsbD 2

/-- Condition code Z, PSR[1] (R27, R31). -/
def State.codeZ (s : State) : Bool := s.psr.getLsbD 1

/-- Condition code P, PSR[0] (R27, R31). -/
def State.codeP (s : State) : Bool := s.psr.getLsbD 0

/-- User mode is PSR[15] = 1, Supervisor mode PSR[15] = 0 (R31, 60_exceptions.md R210). -/
def State.userMode (s : State) : Bool := s.psr.getLsbD 15

/-- The priority level of the running program, PSR[10:8] (R31). -/
def State.priority (s : State) : BitVec 3 := s.psr.extractLsb' 8 3

/-! ### Writing the fields -/

/-- The condition code that `setcc(v)` sets: the sign of `v` as a two's complement integer (R28). -/
def codeOf (v : Word) : ConditionCode :=
  if v.getLsbD 15 then .n else if v = 0 then .z else .p

/-- The three bits N, Z, P with exactly one set (R27, R31). -/
def codeBits : ConditionCode → Word
  | .n => 0b100
  | .z => 0b010
  | .p => 0b001

/-- Set one condition code and clear the other two; the other bits of the PSR stay (R28, R32). -/
def State.setCode (s : State) (c : ConditionCode) : State :=
  { s with psr := (s.psr &&& 0xFFF8) ||| codeBits c }

/-- `setcc(v)` (R28). -/
def State.setCC (s : State) (v : Word) : State := s.setCode (codeOf v)

/-- `psr[15] <- 0` (60_exceptions.md R219). -/
def State.enterSupervisor (s : State) : State := { s with psr := s.psr &&& 0x7FFF }

/-- `psr[10:8] <- level` (60_exceptions.md R217). -/
def State.setPriority (s : State) (level : BitVec 3) : State :=
  { s with psr := (s.psr &&& 0xF8FF) ||| (level.setWidth 16 <<< 8) }

/-! ### The branch condition -/

/-- `taken`: a condition code that the instruction tests is set (42_control.md R180). -/
def State.taken (s : State) (n z p : Bool) : Bool :=
  (n && s.codeN) || (z && s.codeZ) || (p && s.codeP)

end Sys2Proof.Machine
end

