-- ==== Sys2Proof/Machine/Operands.lean ====
section
/-! DEFINITION. Register access, immediates and effective addresses (10_state.md R20; 30_encoding.md R93 to R97;
41_data_movement.md R150, R152; 42_control.md R186, R191). -/

namespace Sys2Proof.Machine

/-! ### General registers -/

/-- The register a register number names (R20). -/
def Regs.get (g : Regs) : Reg → Word
  | .r0 => g.r0
  | .r1 => g.r1
  | .r2 => g.r2
  | .r3 => g.r3
  | .r4 => g.r4
  | .r5 => g.r5
  | .r6 => g.r6
  | .r7 => g.r7

/-- The register file with one register written (R20). -/
def Regs.set (g : Regs) (r : Reg) (v : Word) : Regs :=
  match r with
  | .r0 => { g with r0 := v }
  | .r1 => { g with r1 := v }
  | .r2 => { g with r2 := v }
  | .r3 => { g with r3 := v }
  | .r4 => { g with r4 := v }
  | .r5 => { g with r5 := v }
  | .r6 => { g with r6 := v }
  | .r7 => { g with r7 := v }

/-- `x[i]` (00_scope.md R11). -/
def State.reg (s : State) (r : Reg) : Word := s.regs.get r

/-- `x[i] <- v` (00_scope.md R11). -/
def State.setReg (s : State) (r : Reg) (v : Word) : State := { s with regs := s.regs.set r v }

/-! ### Immediates and offsets: cut to the field, then sign-extended (R11; log 24 for a number that does not
fit) -/

/-- `sext_5(imm5)` (R93). -/
def sext5 (imm5 : Int) : Word := (BitVec.ofInt 5 imm5).signExtend 16

/-- `sext_6(offset6)` (R94). -/
def sext6 (offset6 : Int) : Word := (BitVec.ofInt 6 offset6).signExtend 16

/-- `sext_9(PCoffset9)` (R95). -/
def sext9 (pcOffset9 : Int) : Word := (BitVec.ofInt 9 pcOffset9).signExtend 16

/-- `sext_11(PCoffset11)` (R96). -/
def sext11 (pcOffset11 : Int) : Word := (BitVec.ofInt 11 pcOffset11).signExtend 16

/-! ### Effective addresses, sums modulo 2^16 (20_memory.md R67). `pc` is the incremented PC (10_state.md R24) -/

/-- PC-relative mode (R150). -/
def State.pcRelative9 (s : State) (pcOffset9 : Int) : Word := s.pc + sext9 pcOffset9

/-- The target of JSR (R186). -/
def State.pcRelative11 (s : State) (pcOffset11 : Int) : Word := s.pc + sext11 pcOffset11

/-- Base+offset mode (R152). -/
def State.baseOffset (s : State) (baseR : Reg) (offset6 : Int) : Word := s.reg baseR + sext6 offset6

/-! ### Vectors -/

/-- `TRAPVEC_EXT(trapvect8)`: the address of a trap table entry. The vector is
sign-extended; zero extension, the other value of the parameter, agrees for vectors x00 to x7F (R191; log 5). -/
def trapTableAddress (trapVect8 : Nat) : Word :=
  match Config.trapVecExt with
  | .sext => (BitVec.ofNat 8 trapVect8).signExtend 16
  | .zext => (BitVec.ofNat 8 trapVect8).setWidth 16

/-- The address of an interrupt or exception vector table entry, `EXC_VECTOR_BASE + zext_8(code)`
(60_exceptions.md R215, R222). -/
def excTableAddress (code : Byte) : Word := Config.excVectorBase + code.setWidth 16

/-- The services that TRAP x21, x23 and x25 call (42_control.md R193). -/
inductive Service where
  | output  -- x21, output a character to the monitor
  | input   -- x23, input a character from the keyboard
  | halt    -- x25, halt the program
deriving DecidableEq, Repr

/-- The documented service of a trap vector, if it has one (R193). -/
def serviceOf (trapVect8 : Nat) : Option Service :=
  match (BitVec.ofNat 8 trapVect8).toNat with
  | 0x21 => some .output
  | 0x23 => some .input
  | 0x25 => some .halt
  | _ => none

end Sys2Proof.Machine
end

