-- ==== Sys2Proof/Machine/Ops.lean ====
section
/-! DEFINITION. The shared operations: memory access, fetch, stack, taking an exception and returning from one,
interrupts, traps and the host services. -/

namespace Sys2Proof.Machine

/-! ### MemRead and MemWrite (20_memory.md R65, R66). A read has a value and a state after it; the devices act
before each access (R69, R75), and each access leaves its address in MAR and its datum in MDR (10_state.md R36). -/

/-- The value of `MemRead(a, 1)` (R65). -/
def State.readWord (s : State) (a : Word) : Word :=
  match deviceAt s.platform.deviceMap a with
  | some d => s.deviceTick.deviceValue d
  | none => s.peek a

/-- The state after `MemRead(a, 1)` (R65): plain memory is unchanged, a device may change by being read (R75). -/
def State.afterRead (s : State) (a : Word) : State :=
  match deviceAt s.platform.deviceMap a with
  | some d => { s.deviceTick.deviceReadEffect d with mar := a, mdr := s.readWord a }
  | none => { s.deviceTick with mar := a, mdr := s.readWord a }

/-- `MemWrite(a, 1, v)` (R66). -/
def State.writeWord (s : State) (a v : Word) : State :=
  match deviceAt s.platform.deviceMap a with
  | some d => { s.deviceTick.deviceWrite v d with mar := a, mdr := v }
  | none => { s.deviceTick.poke a v with mar := a, mdr := v }

/-! ### Fetch (10_state.md R24) -/

/-- The state in which a fetched instruction is executed: the word at PC has been read into IR and PC has been
incremented, modulo 2^16 (R24, R25). -/
def State.afterFetch (s : State) : State :=
  { s.afterRead s.pc with ir := s.readWord s.pc, pc := s.pc + 1 }

/-! ### Results and loads -/

/-- Write a result to DR and set the condition codes from it (10_state.md R28, R29). -/
def State.writeResult (s : State) (dr : Reg) (v : Word) : State := (s.setReg dr v).setCC v

/-- Load the word at an address into DR and set the condition codes from it (41_data_movement.md R161). -/
def State.load (s : State) (dr : Reg) (ea : Word) : State := (s.afterRead ea).writeResult dr (s.readWord ea)

/-! ### The supervisor stack (60_exceptions.md R220) -/

/-- A push: subtract 1 from R6, then write at R6. -/
def State.push (s : State) (v : Word) : State :=
  (s.setReg .r6 (s.reg .r6 - 1)).writeWord (s.reg .r6 - 1) v

/-- The value a pop gives: the word at R6. -/
def State.popValue (s : State) : Word := s.readWord (s.reg .r6)

/-- The state after a pop: read at R6, then add 1 to R6. -/
def State.afterPop (s : State) : State := (s.afterRead (s.reg .r6)).setReg .r6 (s.reg .r6 + 1)

/-! ### Taking an exception or an interrupt (60_exceptions.md R219) -/

/-- On an entry from User mode R6 is kept in Saved_USP and becomes Saved_SSP (R221). -/
def State.switchToSupervisorStack (s : State) : State :=
  { s.setReg .r6 s.savedSsp with savedUsp := s.reg .r6 }

/-- On a return to User mode R6 is kept in Saved_SSP and becomes Saved_USP (R221). -/
def State.switchToUserStack (s : State) : State :=
  { s.setReg .r6 s.savedUsp with savedSsp := s.reg .r6 }

/-- The stack on which the entry sequence pushes: exchanged when the interrupted program ran in User mode and
STACK_SWITCH is saved_sp (R219, R221). -/
def State.entryStack (s : State) (fromUser : Bool) : State :=
  if Config.stackSwitch = .savedSp ∧ fromUser = true then s.switchToSupervisorStack else s

/-- Load the PC with the word at an address. -/
def State.jumpThrough (s : State) (tableAddress : Word) : State :=
  { s.afterRead tableAddress with pc := s.readWord tableAddress }

/-- The entry sequence, the same for an interrupt and for an exception (R219): PSR[15] is cleared, then the old
PSR and the saved PC are pushed on the supervisor stack, then the PC is loaded from the vector table. -/
def State.enter (s : State) (code : Byte) (savedPc : Word) : State :=
  (((s.enterSupervisor.entryStack s.userMode).push s.psr).push savedPc).jumpThrough (excTableAddress code)

/-- The PC that an exception pushes: the address of the instruction that caused it, or the next one. Which of
the two is open (60_exceptions.md R223; log 6). `pc` is the incremented PC. -/
def State.exceptionPc (s : State) (cause : ExceptionCause) : Word :=
  match Config.excSavedPc cause with
  | .this => s.pc - 1
  | .next => s.pc

/-- Taking an exception (60_exceptions.md R212, R213, R215, R219). -/
def State.takeException (s : State) (cause : ExceptionCause) : State :=
  s.enter (Config.excCode cause) (s.exceptionPc cause)

/-- The exception's vector table entry has been written, by the loader or by a store (70_reset_and_hazards.md R252
item 2; item 1, the supervisor stack pointer, holds from reset: log 29). -/
def State.exceptionReady (s : State) (cause : ExceptionCause) : Bool :=
  (Memory.lookup s.mem (excTableAddress (Config.excCode cause)).toNat).isSome

/-- `raise <Exception>` (00_scope.md R11): the exception is taken; until its table entry is set up it would jump to an
unknown address, and is reported as a fault that carries the state at the raise (60_exceptions.md R223,
70_reset_and_hazards.md R252, R253; log 29). -/
def State.raiseException (s : State) (cause : ExceptionCause) : Host.Outcome State Fault Refusal :=
  if s.exceptionReady cause then .next (s.takeException cause) else .fault (.exception cause s)

/-- RTI in Supervisor mode (42_control.md R194): pop the PC, then the PSR, from the supervisor stack; when the
popped PSR is a User-mode one, exchange the stack pointers (R221). -/
def State.returnFromInterrupt (s : State) : State :=
  let popped := { s.afterPop.afterPop with pc := s.popValue, psr := s.afterPop.popValue }
  if Config.stackSwitch = .savedSp ∧ popped.userMode = true then popped.switchToUserStack else popped

/-! ### External interrupts (60_exceptions.md R216, R217), on a platform that has a source -/

/-- The keyboard requests while KBSR[15] and KBSR[14] are set; the request is granted when its level is above
the priority of the running program (R217). -/
def State.interruptGranted (s : State) : Bool :=
  match s.platform.interruptSources with
  | .none => false
  | .keyboard => s.kbsr.getLsbD 15 && s.kbsr.getLsbD 14 && decide (s.priority < Config.keyboardLevel)

/-- Taking the keyboard interrupt: the entry sequence with the PC of the instruction about to be fetched, then
the source's priority level (R217; log 20). -/
def State.takeInterrupt (s : State) : State :=
  (s.enter Config.keyboardVector s.pc).setPriority Config.keyboardLevel

/-! ### Traps (42_control.md R190, 60_exceptions.md R226 to R229) -/

/-- TRAP through the trap table: R7 links to the next instruction, the PC is the table entry (R190). -/
def State.trapVectored (s : State) (trapVect8 : Nat) : State :=
  (s.setReg .r7 s.pc).jumpThrough (trapTableAddress trapVect8)

/-- The common effects of a host service: R7 links to the next instruction and the condition codes are left
one-hot, which one is open (R226; log 8). -/
def State.afterService (s : State) : State :=
  { (s.setReg .r7 s.pc).setCode (Config.serviceCode s.freeIndex) with freeIndex := s.freeIndex + 1 }

/-- TRAP x21: output the character R0[7:0] (R227). -/
def State.serviceOutput (s : State) : State :=
  { s.afterService with output := s.output ++ [(s.reg .r0).setWidth 8] }

/-- TRAP x23 with the character `c` at the head of the input stream: R0 receives it with bits 15:8 zero, and the
echo, which is open, is output (R228; log 7). -/
def State.serviceInput (s : State) (c : Byte) (rest : List Byte) : State :=
  { s.afterService.setReg .r0 (c.setWidth 16) with input := rest, output := s.output ++ Config.inEcho c }

/-- TRAP x25: the run ends (R229; log 17). -/
def State.serviceHalt (s : State) : State := { s.afterService with halted := true }

end Sys2Proof.Machine
end

