-- ==== Sys2Proof/Machine/Arithmetic.lean ====
section
/-! DEFINITION. NOT, ADD, AND (40_arithmetic.md). In every meaning `s` is the state after the fetch, with PC
incremented (10_state.md R24); sources are read before DR is written (R138). -/

namespace Sys2Proof.Machine

/-- ADD, register mode (R131, R137). -/
def execAddReg (dr sr1 sr2 : Reg) (s : State) : Host.Outcome State Fault Refusal :=
  .next (s.writeResult dr (s.reg sr1 + s.reg sr2))

/-- ADD, immediate mode (R132, R137). -/
def execAddImm (dr sr1 : Reg) (imm5 : Int) (s : State) : Host.Outcome State Fault Refusal :=
  .next (s.writeResult dr (s.reg sr1 + sext5 imm5))

/-- AND, register mode (R133). -/
def execAndReg (dr sr1 sr2 : Reg) (s : State) : Host.Outcome State Fault Refusal :=
  .next (s.writeResult dr (s.reg sr1 &&& s.reg sr2))

/-- AND, immediate mode (R134). -/
def execAndImm (dr sr1 : Reg) (imm5 : Int) (s : State) : Host.Outcome State Fault Refusal :=
  .next (s.writeResult dr (s.reg sr1 &&& sext5 imm5))

/-- NOT (R130). -/
def execNot (dr sr : Reg) (s : State) : Host.Outcome State Fault Refusal :=
  .next (s.writeResult dr (~~~ s.reg sr))

end Sys2Proof.Machine
end

