-- ==== Sys2Proof/Machine/Control.lean ====
section
/-! DEFINITION. BR, JMP, JSR, JSRR, TRAP, RTI (42_control.md) and the unused opcode (30_encoding.md R103). In every
meaning `s` is the state after the fetch, with PC incremented (10_state.md R24). -/

namespace Sys2Proof.Machine

/-- BR (R180, R181). -/
def execBr (n z p : Bool) (pcOffset9 : Int) (s : State) : Host.Outcome State Fault Refusal :=
  .next (if s.taken n z p then { s with pc := s.pcRelative9 pcOffset9 } else s)

/-- JMP, and RET as JMP R7 (R184, R185). -/
def execJmp (baseR : Reg) (s : State) : Host.Outcome State Fault Refusal :=
  .next { s with pc := s.reg baseR }

/-- JSR (R186). -/
def execJsr (pcOffset11 : Int) (s : State) : Host.Outcome State Fault Refusal :=
  .next { s.setReg .r7 s.pc with pc := s.pcRelative11 pcOffset11 }

/-- JSRR: R7 is written first, then the base register is read (R187, R188; log 16). -/
def execJsrr (baseR : Reg) (s : State) : Host.Outcome State Fault Refusal :=
  .next { s.setReg .r7 s.pc with pc := (s.setReg .r7 s.pc).reg baseR }

/-- TRAP: the three documented services when the host performs them (60_exceptions.md R226 to R229), the trap
table otherwise (R190). With the input exhausted TRAP x23 is stuck (R228). -/
def execTrap (trapVect8 : Nat) (s : State) : Host.Outcome State Fault Refusal :=
  match s.platform.trapModel with
  | .vectored => .next (s.trapVectored trapVect8)
  | .hostService =>
    match serviceOf trapVect8 with
    | some .output => .next s.serviceOutput
    | some .input =>
      match s.input with
      | [] => .fault .waitingForInput
      | c :: rest => .next (s.serviceInput c rest)
    | some .halt => .next s.serviceHalt
    | none => .next (s.trapVectored trapVect8)

/-- RTI: the return from an interrupt or exception in Supervisor mode, a privilege mode violation in User mode
(R194, 60_exceptions.md R212). -/
def execRti (s : State) : Host.Outcome State Fault Refusal :=
  if s.userMode then s.raiseException .privilegeModeViolation else .next s.returnFromInterrupt

/-- The unused opcode 1101 raises the illegal opcode exception; its bits 11:0 play no part (30_encoding.md R103,
60_exceptions.md R213; log 14). -/
def execUnusedOpcode (_anyBits : BitVec 12) (s : State) : Host.Outcome State Fault Refusal :=
  s.raiseException .illegalOpcode

end Sys2Proof.Machine
end

