-- ==== Sys2Proof/Machine/DataMovement.lean ====
section
/-! DEFINITION. LD, LDI, LDR, ST, STI, STR, LEA (41_data_movement.md). In every meaning `s` is the state after
the fetch, with PC incremented (10_state.md R24). -/

namespace Sys2Proof.Machine

/-- LD (R154). -/
def execLd (dr : Reg) (pcOffset9 : Int) (s : State) : Host.Outcome State Fault Refusal :=
  .next (s.load dr (s.pcRelative9 pcOffset9))

/-- LDI: the pointer is read first, then the data (R155). -/
def execLdi (dr : Reg) (pcOffset9 : Int) (s : State) : Host.Outcome State Fault Refusal :=
  .next ((s.afterRead (s.pcRelative9 pcOffset9)).load dr (s.readWord (s.pcRelative9 pcOffset9)))

/-- LDR (R156). -/
def execLdr (dr baseR : Reg) (offset6 : Int) (s : State) : Host.Outcome State Fault Refusal :=
  .next (s.load dr (s.baseOffset baseR offset6))

/-- ST (R157). -/
def execSt (sr : Reg) (pcOffset9 : Int) (s : State) : Host.Outcome State Fault Refusal :=
  .next (s.writeWord (s.pcRelative9 pcOffset9) (s.reg sr))

/-- STI: the pointer is read first, then the data is written (R158). -/
def execSti (sr : Reg) (pcOffset9 : Int) (s : State) : Host.Outcome State Fault Refusal :=
  .next ((s.afterRead (s.pcRelative9 pcOffset9)).writeWord (s.readWord (s.pcRelative9 pcOffset9)) (s.reg sr))

/-- STR (R159). -/
def execStr (sr baseR : Reg) (offset6 : Int) (s : State) : Host.Outcome State Fault Refusal :=
  .next (s.writeWord (s.baseOffset baseR offset6) (s.reg sr))

/-- LEA: the address itself is the result; LEA_SETS_CC (R160, R163; log 11). -/
def execLea (dr : Reg) (pcOffset9 : Int) (s : State) : Host.Outcome State Fault Refusal :=
  .next (if Config.leaSetsCC then s.writeResult dr (s.pcRelative9 pcOffset9)
    else s.setReg dr (s.pcRelative9 pcOffset9))

end Sys2Proof.Machine
end

