-- ==== Sys2Proof/Machine/Step.lean ====
section
/-! DEFINITION. One step of the machine (10_state.md R24) and the placing of a word where it fetches. -/

namespace Sys2Proof.Machine

/-- One step. A halted or stopped machine takes none (70_reset_and_hazards.md R253; log 17, log 28). A granted
interrupt is taken before the fetch and is a step of its own (60_exceptions.md R217, R218; log 20). Otherwise the
word at PC is fetched, PC is incremented, and the decoded instruction is executed (R24); a non-canonical word is
refused (30_encoding.md R104). -/
def step (s : State) : Host.Outcome State Fault Refusal :=
  if s.halted then .fault .halted
  else if !s.clockEnabled then .fault .clockStopped
  else if s.interruptGranted then .next s.takeInterrupt
  else
    match decode (s.readWord s.pc) with
    | .instruction i => exec i s.afterFetch
    | .nonCanonical w => .refused (.nonCanonical w)

/-- The state with the instruction word in the location that `step` fetches next, the one at PC (R24): the host's
load of one word (70_reset_and_hazards.md R254; log 2). An instruction is one 16-bit word (30_encoding.md R90). -/
def State.withFetchWord (s : State) (nbits w : Nat) : State :=
  s.poke s.pc (BitVec.ofNat 16 (w % 2 ^ nbits))

end Sys2Proof.Machine
end

