-- ==== Sys2Proof/Safety.lean ====
section
/-! DEFINITION. What counts as a good state and a safe run, and the words the statements use: the invariant of
the machine, the one-hot condition codes, what a condition code says of a value, and the frames. -/

namespace Sys2Proof.Machine

/-! ### Good states -/

/-- Exactly one of N, Z, P is 1 (10_state.md R27). -/
def State.codesOneHot (s : State) : Prop :=
  (s.codeN = true ∧ s.codeZ = false ∧ s.codeP = false) ∨
  (s.codeN = false ∧ s.codeZ = true ∧ s.codeP = false) ∨
  (s.codeN = false ∧ s.codeZ = false ∧ s.codeP = true)

/-- The machine's invariant: the memory has its canonical form with every address inside the 2^16 locations
(20_memory.md R60), and the keyboard data register has bits 15:8 zero (R78). -/
def State.Inv (s : State) : Prop := Memory.wf s.mem ∧ s.kbdr.extractLsb' 8 8 = 0

/-- The next step fetches: the run has not ended, the clock runs and no interrupt is granted
(70_reset_and_hazards.md R253, 60_exceptions.md R217). -/
def State.fetches (s : State) : Prop :=
  s.halted = false ∧ s.clockEnabled = true ∧ s.interruptGranted = false

/-- A run is safe while no step is refused: the words it fetches are canonical (30_encoding.md R104) and so every
stop is one that 70_reset_and_hazards.md R253 names as the end of a run. -/
def safeFor : Nat → State → Prop
  | 0, _ => True
  | k + 1, s =>
    match step s with
    | .next t => safeFor k t
    | .fault _ => True
    | .refused _ => False

/-! ### What the statements say of a state -/

/-- The condition codes of `t` are those of the value `v` taken as a two's complement integer (10_state.md R28). -/
def State.codesSay (t : State) (v : Word) : Prop :=
  t.codeN = decide (v.toInt < 0) ∧ t.codeZ = decide (v.toInt = 0) ∧ t.codeP = decide (0 < v.toInt)

/-- The PSR of `t` differs from that of `s` in the condition codes at most (10_state.md R32). -/
def State.samePsrAboveCodes (s t : State) : Prop := t.psr.extractLsb' 3 13 = s.psr.extractLsb' 3 13

/-- Register `dr` of `t` holds `v` and every other general register is as in `s`. -/
def State.onlyRegWritten (s t : State) (dr : Reg) (v : Word) : Prop :=
  ∀ r, t.reg r = if r = dr then v else s.reg r

/-- Every memory location of `t` is as in `s`. -/
def State.sameMemory (s t : State) : Prop := ∀ a, t.peek a = s.peek a

/-- Location `a` of `t` holds `v` and every other memory location is as in `s` (20_memory.md R66). -/
def State.onlyWordWritten (s t : State) (a v : Word) : Prop := ∀ b, t.peek b = if b = a then v else s.peek b

/-- What no memory access changes: the saved stack pointers, the instruction register, the ending of the run and
the platform. -/
def State.sameSystem (s t : State) : Prop :=
  t.savedSsp = s.savedSsp ∧ t.savedUsp = s.savedUsp ∧ t.ir = s.ir ∧ t.halted = s.halted ∧ t.platform = s.platform

/-- The streams, the device registers and the free-value counter of `t` are as in `s`. -/
def State.sameDevices (s t : State) : Prop :=
  t.input = s.input ∧ t.output = s.output ∧ t.kbsr = s.kbsr ∧ t.kbdr = s.kbdr ∧ t.dsr = s.dsr ∧ t.ddr = s.ddr ∧
    t.mcr = s.mcr ∧ t.freeIndex = s.freeIndex

/-- An arithmetic or logic result (40_arithmetic.md R135): DR holds it, the codes say its sign, and no other register,
PSR bit or piece of state changes. -/
def State.resultWritten (s t : State) (dr : Reg) (v : Word) : Prop :=
  s.onlyRegWritten t dr v ∧ t.codesSay v ∧ s.samePsrAboveCodes t ∧ t = { s with regs := t.regs, psr := t.psr }

/-- A load of `v` from `ea` (41_data_movement.md R161): DR holds it, the codes say its sign, and no other register, PSR
bit, memory location, the PC or the system state changes. MAR and MDR hold the access (10_state.md R36). The devices are as
the read leaves them (R162, 20_memory.md R78), which is made in the state `before`: `s`, or after an earlier read. -/
def State.loadDone (s before t : State) (dr : Reg) (ea v : Word) : Prop :=
  s.onlyRegWritten t dr v ∧ t.codesSay v ∧ s.samePsrAboveCodes t ∧ t.pc = s.pc ∧ s.sameMemory t ∧ s.sameSystem t ∧
    t.mar = ea ∧ t.mdr = v ∧ t.output = s.output ∧ (before.afterRead ea).sameDevices t ∧
    (s.platform.deviceMap = .empty → s.sameDevices t)

/-- A store of `v` to `ea` (41_data_movement.md R161): the location holds it when it is plain memory, no other location
changes, and no register, PSR bit, the PC or the system state changes. MAR and MDR hold the access (10_state.md R36). The
devices are as the write leaves them (R162, 20_memory.md R78), which is made in the state `before`: `s`, or after an
earlier read. -/
def State.storeDone (s before t : State) (ea v : Word) : Prop :=
  (∀ r, t.reg r = s.reg r) ∧ t.psr = s.psr ∧ t.pc = s.pc ∧ s.sameSystem t ∧ t.mar = ea ∧ t.mdr = v ∧
    (deviceAt s.platform.deviceMap ea = none → s.onlyWordWritten t ea v) ∧
    (deviceAt s.platform.deviceMap ea ≠ none → s.sameMemory t) ∧ (before.writeWord ea v).sameDevices t ∧
    (s.platform.deviceMap = .empty → s.sameDevices t)

/-- The entry sequence has been done (60_exceptions.md R219, R221) through the table entry at `table` with `savedPc`
pushed: PSR[15] is 0 and the other PSR bits are kept; the supervisor stack pointer, Saved_SSP when the interrupted
program ran in User mode, is two lower; the old PSR lies one below it and `savedPc` two below; no other memory location
changes; from User mode the old R6 is in Saved_USP; the PC is the table entry. The devices are as the two writes and the
read of the entry leave them (20_memory.md R78). -/
def State.entered (s t : State) (table savedPc : Word) : Prop :=
  let sp := if s.userMode then s.savedSsp else s.reg .r6
  t.psr = s.psr &&& 0x7FFF ∧
  (∀ r, t.reg r = if r = .r6 then sp - 2 else s.reg r) ∧
  t.savedUsp = (if s.userMode then s.reg .r6 else s.savedUsp) ∧ t.savedSsp = s.savedSsp ∧
  (deviceAt s.platform.deviceMap (sp - 1) = none → t.peek (sp - 1) = s.psr) ∧
  (deviceAt s.platform.deviceMap (sp - 2) = none → t.peek (sp - 2) = savedPc) ∧
  (∀ a, a ≠ sp - 1 → a ≠ sp - 2 → t.peek a = s.peek a) ∧
  t.pc = t.peek table ∧ t.ir = s.ir ∧ t.halted = s.halted ∧ t.platform = s.platform ∧
  t.mar = table ∧ t.mdr = t.pc ∧
  (((s.writeWord (sp - 1) s.psr).writeWord (sp - 2) savedPc).afterRead table).sameDevices t ∧
  (s.platform.deviceMap = .empty → s.sameDevices t)

/-- Every word whose bits under `mask` are `bits` decodes to the instruction that `i` reads from its fields: the encoding
of one instruction form (30_encoding.md R101). -/
def encodedAs (bits mask : Word) (i : Word → Instr) : Prop :=
  ∀ w : Word, w &&& mask = bits → decode w = .instruction (i w)

/-- The low 16 bits of the sum of a word, taken as unsigned, and a signed offset (20_memory.md R67). -/
def wrappedSum (a : Word) (offset : Int) : Word := BitVec.ofInt 16 ((a.toNat : Int) + offset)

/-- The strict match and mask of each row of the opcode table, in its order (30_encoding.md R104, R116). -/
def strictRows : List (Word × Word) :=
  [(0x0000, 0xF000), (0x1000, 0xF038), (0x1020, 0xF020), (0x2000, 0xF000), (0x3000, 0xF000),
   (0x4800, 0xF800), (0x4000, 0xFE3F), (0x5000, 0xF038), (0x5020, 0xF020), (0x6000, 0xF000),
   (0x7000, 0xF000), (0x8000, 0xFFFF), (0x903F, 0xF03F), (0xA000, 0xF000), (0xB000, 0xF000),
   (0xC000, 0xFE3F), (0xD000, 0xF000), (0xE000, 0xF000), (0xF000, 0xFF00)]

/-- The machine with its privilege bit inverted (10_state.md R31). -/
def State.flipMode (s : State) : State := { s with psr := s.psr ^^^ 0x8000 }

/-- An outcome with the privilege bit of its next state inverted. -/
def flipOutcome : Host.Outcome State Fault Refusal → Host.Outcome State Fault Refusal
  | .next t => .next t.flipMode
  | .fault r => .fault r
  | .refused r => .refused r

end Sys2Proof.Machine
end

