-- ==== Sys2Proof/Certificates/Slice0/Obligations.lean ====
section
/-! DEFINITION. The statements for the provers. In a statement about an instruction `s` is the state in which it is
executed, with the PC already incremented by the fetch (10_state.md R24). -/

open Sys2Proof Sys2Proof.Machine

/-! ### Encoding -/

/-- Decoding the word of a well-formed instruction gives the instruction (30_encoding.md R91, R100 to R102). -/
def Obligations.DecodeOfEncode : Prop :=
  ∀ i : Instr, i.WellFormed → decode (encode i) = .instruction i

/-- A word that decodes is the word of the instruction it decodes to, which is well-formed.
It holds because the other words are refused: NONCANONICAL = refuse, a decision of the spec (30_encoding.md R104, log 12). -/
def Obligations.EncodeOfDecode : Prop :=
  ∀ (w : Word) (i : Instr), decode w = .instruction i → i.WellFormed ∧ encode i = w

/-- No word decodes to an instruction with a number that does not fit its field (30_encoding.md R115).
R115 is the spec's own inference (log 24). -/
def Obligations.UnfittingNumberHasNoEncoding : Prop :=
  ∀ i : Instr, ¬ i.WellFormed → ∀ w : Word, decode w ≠ .instruction i

/-- The words refused are those that match no row of the opcode table, and no word matches two rows
(30_encoding.md R104, R116). That such a word is refused is NONCANONICAL = refuse, a decision of the spec (log 12). -/
def Obligations.RefusedWordsMatchNoRow : Prop :=
  (∀ w : Word, decode w = .nonCanonical w ↔ ∀ row ∈ strictRows, w &&& row.2 ≠ row.1) ∧
    strictRows.Pairwise fun a b => ∀ w : Word, ¬ (w &&& a.2 = a.1 ∧ w &&& b.2 = b.1)

/-- With the fixed bits ignored every word decodes, and a word that is not refused decodes to the same instruction
(30_encoding.md R104, the other value of NONCANONICAL). Not this hardware's value: log 12. -/
def Obligations.LooseDecodingIsTotal : Prop :=
  ∀ w : Word, ∃ i, decodeWith .ignore w = .instruction i ∧ ∀ j, decode w = .instruction j → j = i

/-- Example words decode to the instructions they stand for (95_test_vectors.md Part 1.1; xF025 is in Part 1.2), and the
non-canonical x9880 of Part 2 is refused. The words x480F, x40C0 and x8000 rest on encodings that are not in the sources
(log 15), the refusal on NONCANONICAL = refuse (log 12). -/
def Obligations.ExampleWordsDecode : Prop :=
  decode 0x14C4 = .instruction (.addReg .r2 .r3 .r4) ∧
  decode 0x54E7 = .instruction (.andImm .r2 .r3 7) ∧
  decode 0x98BF = .instruction (.not .r4 .r2) ∧
  decode 0x07FB = .instruction (.br false true true (-5)) ∧
  decode 0x68BB = .instruction (.ldr .r4 .r2 (-5)) ∧
  decode 0x7885 = .instruction (.str .r4 .r2 5) ∧
  decode 0x480F = .instruction (.jsr 15) ∧
  decode 0x40C0 = .instruction (.jsrr .r3) ∧
  decode 0xC1C0 = .instruction (.jmp .r7) ∧
  decode 0xF025 = .instruction (.trap 0x25) ∧
  decode 0x8000 = .instruction .rti ∧
  decode 0x9880 = .nonCanonical 0x9880

/-! ### Operands and addresses -/

/-- The immediates and offsets are in their ranges and the operand is the sign-extended field
(30_encoding.md R93, R94, R96). -/
def Obligations.ImmediatesAreSignExtendedFields : Prop :=
  ∀ w : Word,
    (-16 ≤ imm5Field w ∧ imm5Field w ≤ 15 ∧ sext5 (imm5Field w) = (w.extractLsb' 0 5).signExtend 16) ∧
    (-32 ≤ offset6Field w ∧ offset6Field w ≤ 31 ∧ sext6 (offset6Field w) = (w.extractLsb' 0 6).signExtend 16) ∧
    (-256 ≤ pcOffset9Field w ∧ pcOffset9Field w ≤ 255 ∧
      sext9 (pcOffset9Field w) = (w.extractLsb' 0 9).signExtend 16) ∧
    (-1024 ≤ pcOffset11Field w ∧ pcOffset11Field w ≤ 1023 ∧
      sext11 (pcOffset11Field w) = (w.extractLsb' 0 11).signExtend 16)

/-- Every effective address is the low 16 bits of its sum (20_memory.md R67).
The wrap is the spec's own inference, decision D3 (log 22). -/
def Obligations.AddressesWrapModuloMemory : Prop :=
  ∀ s : State,
    (∀ off : Int, -256 ≤ off → off ≤ 255 →
      ((s.pcRelative9 off).toNat : Int) = ((s.pc.toNat : Int) + off) % 65536) ∧
    (∀ off : Int, -1024 ≤ off → off ≤ 1023 →
      ((s.pcRelative11 off).toNat : Int) = ((s.pc.toNat : Int) + off) % 65536) ∧
    (∀ (base : Reg) (off : Int), -32 ≤ off → off ≤ 31 →
      ((s.baseOffset base off).toNat : Int) = (((s.reg base).toNat : Int) + off) % 65536) ∧
    s.afterFetch.pc.toNat = (s.pc.toNat + 1) % 65536 ∧
    (s.afterPop.reg .r6).toNat = ((s.reg .r6).toNat + 1) % 65536

/-- The trap table address is the sign-extended vector: the vector itself for x00 to x7F, xFF80 to xFFFF for x80 to xFF
(42_control.md R191). Sign extension is the spec's value of record for TRAPVEC_EXT (00_scope.md R8, decision D5, log 5). -/
def Obligations.TrapTableAddressOfVector : Prop :=
  ∀ vector : Nat, vector < 256 →
    (vector < 0x80 → (trapTableAddress vector).toNat = vector) ∧
    (0x80 ≤ vector → (trapTableAddress vector).toNat = vector + 0xFF00)

/-! ### Memory -/

/-- After a write to plain memory the location holds the word and every other location is unchanged
(20_memory.md R66). -/
def Obligations.WrittenWordIsReadBack : Prop :=
  ∀ (s : State) (a v : Word), deviceAt s.platform.deviceMap a = none →
    (s.writeWord a v).readWord a = v ∧ ∀ b, b ≠ a → (s.writeWord a v).peek b = s.peek b

/-- A read of plain memory answers the location and changes no location, no register, no saved stack pointer and no
output; with no device attached it changes nothing but MAR and MDR (20_memory.md R65, R75). With the customary map a
device may act at the access (log 19). That a second read of a never-written location answers the same is the model's choice (log 3). -/
def Obligations.PlainReadHasNoSideEffect : Prop :=
  ∀ (s : State) (a : Word), deviceAt s.platform.deviceMap a = none →
    s.readWord a = s.peek a ∧ (s.afterRead a).readWord a = s.readWord a ∧
    s.sameMemory (s.afterRead a) ∧ (∀ r, (s.afterRead a).reg r = s.reg r) ∧ (s.afterRead a).psr = s.psr ∧
    (s.afterRead a).pc = s.pc ∧ s.sameSystem (s.afterRead a) ∧ (s.afterRead a).output = s.output ∧
    (s.platform.deviceMap = .empty → s.sameDevices (s.afterRead a))

/-- A store to an address is seen by the fetch of that address in the very next step (20_memory.md R72).
R72 is the spec's own inference. -/
def Obligations.NextFetchSeesTheStore : Prop :=
  ∀ (s : State) (a v : Word) (i : Instr), s.fetches → s.platform.deviceMap = .empty → decode v = .instruction i →
    step { s.writeWord a v with pc := a } = exec i { s.writeWord a v with pc := a }.afterFetch ∧
    { s.writeWord a v with pc := a }.afterFetch.ir = v

/-! ### Condition codes -/

/-- `setcc(v)` sets N, Z, P by the value, exactly one of them; the value tested is the one written to DR, after
wrap-around: x7FFF + x0001 = x8000 sets N (10_state.md R28). -/
def Obligations.SetccSaysTheSign : Prop :=
  (∀ (s : State) (v : Word),
    (s.setCC v).codeN = v.getLsbD 15 ∧ (s.setCC v).codeZ = decide (v = 0) ∧
    (s.setCC v).codeP = (!v.getLsbD 15 && decide (v ≠ 0)) ∧
    (s.setCC v).codesSay v ∧ (s.setCC v).codesOneHot ∧ s.samePsrAboveCodes (s.setCC v)) ∧
  (∀ (s : State) (dr : Reg) (v : Word), (s.writeResult dr v).codesSay ((s.writeResult dr v).reg dr)) ∧
  (∀ (s : State) (dr sr1 sr2 : Reg), s.reg sr1 = 0x7FFF → s.reg sr2 = 0x0001 → ∃ t,
    exec (.addReg dr sr1 sr2) s = .next t ∧ t.reg dr = 0x8000 ∧ t.codeN = true)

/-- Exactly one of N, Z, P is set after reset and after every step from a state with exactly one set, but for an RTI
that pops a PSR without (10_state.md R27). -/
def Obligations.OneCodeSetUnlessRtiPopsMalformed : Prop :=
  State.reset.codesOneHot ∧ (∀ (s : State) (v : Word), (s.setCC v).codesOneHot) ∧
  ∀ s t : State, s.codesOneHot → step s = .next t →
    t.codesOneHot ∨
      (s.userMode = false ∧ decode (s.readWord s.pc) = .instruction .rti ∧
        t.psr = s.afterFetch.afterPop.popValue)

/-! ### The machine as a whole -/

/-- The invariant holds after reset: canonical memory, and bits 15:8 of KBDR zero (20_memory.md R60, R78). The canonical
form of the memory is the model's own (log 4), and the reset value of KBDR is the family's (log 1). -/
def Obligations.InvAfterReset : Prop := State.reset.Inv

/-- Every step keeps the invariant: the memory stays canonical and inside the 2^16 locations, and the keyboard data
register keeps bits 15:8 zero (20_memory.md R60, R78; the canonical form is the model's own, log 4). -/
def Obligations.StepKeepsInv : Prop := ∀ s t : State, s.Inv → step s = .next t → t.Inv

/-- What the spec gives of the state after reset: exactly one condition code, no pending interrupt, a machine that
fetches, the defaults of the platform (10_state.md R46, 00_scope.md R8).
The platform is the model's own field (log 9); unwritten memory is log 3. -/
def Obligations.ResetState : Prop :=
  State.reset.codesOneHot ∧ State.reset.interruptGranted = false ∧ State.reset.fetches ∧
  State.reset.platform = { deviceMap := .empty, interruptSources := .none, trapModel := .hostService } ∧
  ∀ a, Memory.lookup State.reset.mem a = none

/-- A step fetches the word at PC into IR, increments the PC and executes the decoded instruction, changing nothing
else of the machine by the fetch (10_state.md R24).
The three premises are the model's form of the end of a run, the stopped clock and the pending interrupt
(log 17, log 28, log 20). -/
def Obligations.StepRunsDecodedInstruction : Prop :=
  ∀ (s : State) (i : Instr), s.halted = false → s.clockEnabled = true → s.interruptGranted = false →
    decode (s.readWord s.pc) = .instruction i →
    i.WellFormed ∧ step s = exec i s.afterFetch ∧
    s.afterFetch.pc = s.pc + 1 ∧ s.afterFetch.ir = s.readWord s.pc ∧ (∀ r, s.afterFetch.reg r = s.reg r) ∧
    s.afterFetch.psr = s.psr ∧ s.afterFetch.savedSsp = s.savedSsp ∧ s.afterFetch.savedUsp = s.savedUsp ∧
    s.sameMemory s.afterFetch ∧ s.afterFetch.mar = s.pc ∧ s.afterFetch.mdr = s.readWord s.pc ∧
    s.afterFetch.output = s.output ∧ s.afterFetch.halted = false ∧ s.afterFetch.platform = s.platform ∧
    (s.afterRead s.pc).sameDevices s.afterFetch ∧
    (s.platform.deviceMap = .empty → s.readWord s.pc = s.peek s.pc ∧ s.sameDevices s.afterFetch)

/-- A word that is not canonical is refused, and no step is taken (30_encoding.md R104, 70_reset_and_hazards.md R253).
NONCANONICAL = refuse is a decision of the spec (log 12). -/
def Obligations.NonCanonicalWordIsRefused : Prop :=
  ∀ s : State, s.fetches → (∀ row ∈ strictRows, s.readWord s.pc &&& row.2 ≠ row.1) →
    step s = .refused (.nonCanonical (s.readWord s.pc))

/-- Every instruction completes, whatever its operands and in either mode, but for three cases: TRAP x23 as a host
service with no input waits (60_exceptions.md R228, log 17), and RTI in User mode and opcode 1101 are a fault while their
exception's table entry has never been written (70_reset_and_hazards.md R252, log 29). There are no other exceptions
(60_exceptions.md R214). That the two exceptions are otherwise taken although EXC_SAVED_PC is open is log 6, opcode 1101
and the table log 14, and that TRAP x80 to xFF runs is log 5. -/
def Obligations.EveryInstructionCompletes : Prop :=
  ∀ (i : Instr) (s : State), i.WellFormed →
    (∃ t, exec i s = .next t) ∨
      (i = .trap 0x23 ∧ s.platform.trapModel = .hostService ∧ s.input = [] ∧ exec i s = .fault .waitingForInput) ∨
      (i = .rti ∧ s.userMode = true ∧ Memory.lookup s.mem 0x0100 = none ∧
        exec i s = .fault (.exception .privilegeModeViolation s)) ∨
      (∃ b, i = .unusedOpcode b ∧ Memory.lookup s.mem 0x0101 = none ∧ exec i s = .fault (.exception .illegalOpcode s))

/-- The running mode is PSR[15]; it changes to Supervisor only by the entry sequence of an interrupt or exception, which
clears PSR[15] whatever the mode was, and to User only by an RTI, to what bit 15 of the popped word says
(60_exceptions.md R210). -/
def Obligations.ModeChangesOnlyByEntryAndRti : Prop :=
  (∀ s : State, s.userMode = s.psr.getLsbD 15) ∧
  (∀ (s : State) (code : Byte) (savedPc : Word), (s.enter code savedPc).psr.getLsbD 15 = false) ∧
  ∀ s t : State, step s = .next t →
    (s.userMode = true → t.userMode = false →
      t = s.takeInterrupt ∨ t = s.afterFetch.takeException .privilegeModeViolation ∨
        t = s.afterFetch.takeException .illegalOpcode) ∧
    (s.userMode = false → t.userMode = true →
      decode (s.readWord s.pc) = .instruction .rti ∧ t = s.afterFetch.returnFromInterrupt ∧
        t.psr = s.afterFetch.afterPop.popValue)

/-- The instructions other than RTI behave the same in both privilege modes; RTI is legal in Supervisor mode and a
privilege mode violation in User mode (60_exceptions.md R211). That the violation is taken although EXC_SAVED_PC is open
is the model's choice (log 6), and it is a fault while its table entry has never been written (log 29). Opcode 1101 is no
instruction. -/
def Obligations.OnlyRtiDependsOnTheMode : Prop :=
  (∀ (i : Instr) (s : State), i ≠ .rti → (∀ b, i ≠ .unusedOpcode b) →
    exec i s.flipMode = flipOutcome (exec i s)) ∧
  (∀ s : State, s.userMode = false → exec .rti s = .next s.returnFromInterrupt) ∧
  (∀ s : State, s.userMode = true → exec .rti s =
    if (Memory.lookup s.mem 0x0100).isSome then .next (s.takeException .privilegeModeViolation)
    else .fault (.exception .privilegeModeViolation s))

/-- No step but an RTI and an entry sequence changes a PSR bit above the condition codes or a saved stack pointer
(10_state.md R32, R34). -/
def Obligations.PsrAndSavedPointersFrame : Prop :=
  ∀ s t : State, step s = .next t → s.interruptGranted = false →
    decode (s.readWord s.pc) ≠ .instruction .rti →
    (∀ b, decode (s.readWord s.pc) ≠ .instruction (.unusedOpcode b)) →
    s.samePsrAboveCodes t ∧ t.savedSsp = s.savedSsp ∧ t.savedUsp = s.savedUsp

/-- Only a store, an exception and an interrupt change a memory location (20_memory.md R64). -/
def Obligations.OnlyStoresAndEntriesWriteMemory : Prop :=
  ∀ s t : State, step s = .next t → s.interruptGranted = false →
    (∀ i, decode (s.readWord s.pc) = .instruction i →
      (∀ sr off, i ≠ .st sr off) ∧ (∀ sr off, i ≠ .sti sr off) ∧ (∀ sr base off, i ≠ .str sr base off) ∧
      (∀ b, i ≠ .unusedOpcode b) ∧ (i = .rti → s.userMode = false)) →
    s.sameMemory t

/-- No step changes what the host has attached (the platform is the model's own field, log 9). -/
def Obligations.StepKeepsPlatform : Prop := ∀ s t : State, step s = .next t → t.platform = s.platform

/-! ### Arithmetic and logic -/

/-- ADD, register mode (40_arithmetic.md R131, R137): the sum modulo 2^16, the same bits for signed and unsigned
operands, the codes of the wrapped sum. -/
def Obligations.AddRegisterResult : Prop :=
  encodedAs 0x1000 0xF038 (fun w => .addReg (regField11 w) (regField8 w) (regField2 w)) ∧
  ∀ (dr sr1 sr2 : Reg) (s : State), ∃ t v,
    exec (.addReg dr sr1 sr2) s = .next t ∧ s.resultWritten t dr v ∧
    v.toNat = ((s.reg sr1).toNat + (s.reg sr2).toNat) % 65536 ∧
    v = BitVec.ofInt 16 ((s.reg sr1).toInt + (s.reg sr2).toInt)

/-- ADD, immediate mode (40_arithmetic.md R132). -/
def Obligations.AddImmediateResult : Prop :=
  encodedAs 0x1020 0xF020 (fun w => .addImm (regField11 w) (regField8 w) (imm5Field w)) ∧
  ∀ (dr sr1 : Reg) (imm : Int) (s : State), -16 ≤ imm → imm ≤ 15 → ∃ t,
    exec (.addImm dr sr1 imm) s = .next t ∧
    s.resultWritten t dr (BitVec.ofInt 16 ((s.reg sr1).toInt + imm))

/-- AND, register mode (40_arithmetic.md R133): bit i is 1 exactly when bit i of both operands is 1. -/
def Obligations.AndRegisterResult : Prop :=
  encodedAs 0x5000 0xF038 (fun w => .andReg (regField11 w) (regField8 w) (regField2 w)) ∧
  ∀ (dr sr1 sr2 : Reg) (s : State), ∃ t v,
    exec (.andReg dr sr1 sr2) s = .next t ∧ s.resultWritten t dr v ∧
    ∀ i, v.getLsbD i = ((s.reg sr1).getLsbD i && (s.reg sr2).getLsbD i)

/-- AND, immediate mode (40_arithmetic.md R134): bits 15:5 of the immediate are its bit 4. -/
def Obligations.AndImmediateResult : Prop :=
  encodedAs 0x5020 0xF020 (fun w => .andImm (regField11 w) (regField8 w) (imm5Field w)) ∧
  ∀ (dr sr1 : Reg) (imm : Int) (s : State), -16 ≤ imm → imm ≤ 15 → ∃ t v,
    exec (.andImm dr sr1 imm) s = .next t ∧ s.resultWritten t dr v ∧
    ∀ i, v.getLsbD i = ((s.reg sr1).getLsbD i && (BitVec.ofInt 16 imm).getLsbD i)

/-- NOT (40_arithmetic.md R130): every bit inverted, that is, -v - 1. -/
def Obligations.NotResult : Prop :=
  encodedAs 0x903F 0xF03F (fun w => .not (regField11 w) (regField8 w)) ∧
  ∀ (dr sr : Reg) (s : State), ∃ t v,
    exec (.not dr sr) s = .next t ∧ s.resultWritten t dr v ∧
    (∀ i, i < 16 → v.getLsbD i = !(s.reg sr).getLsbD i) ∧ v.toInt = -(s.reg sr).toInt - 1

/-- In every arithmetic and logic instruction the sources are read before DR is written: one whose DR equals a source
uses the old value (40_arithmetic.md R138). -/
def Obligations.SourcesAreReadBeforeDestinationIsWritten : Prop :=
  ∀ (r q : Reg) (imm : Int) (s : State), -16 ≤ imm → imm ≤ 15 → ∃ a b c d e f g,
    exec (.addReg r r q) s = .next a ∧ a.reg r = s.reg r + s.reg q ∧
    exec (.addReg r q r) s = .next b ∧ b.reg r = s.reg q + s.reg r ∧
    exec (.addImm r r imm) s = .next c ∧ c.reg r = s.reg r + BitVec.ofInt 16 imm ∧
    exec (.andReg r r q) s = .next d ∧ d.reg r = s.reg r &&& s.reg q ∧
    exec (.andReg r q r) s = .next e ∧ e.reg r = s.reg q &&& s.reg r ∧
    exec (.andImm r r imm) s = .next f ∧ f.reg r = s.reg r &&& BitVec.ofInt 16 imm ∧
    exec (.not r r) s = .next g ∧ g.reg r = ~~~ s.reg r

/-- Negation and subtraction by NOT and ADD (40_arithmetic.md R139): NOT Rt, Rb; ADD Rt, Rt, #1; ADD Rd, Ra, Rt leaves
Ra - Rb in Rd when the scratch register Rt is not Ra. The identity is the spec's own inference. -/
def Obligations.SubtractionByNotAndAdd : Prop :=
  ∀ (rd ra rb rt : Reg) (s : State), rt ≠ ra → ∃ t1 t2 t3,
    exec (.not rt rb) s = .next t1 ∧ exec (.addImm rt rt 1) t1 = .next t2 ∧ exec (.addReg rd ra rt) t2 = .next t3 ∧
    t2.reg rt = -s.reg rb ∧ t3.reg rd = s.reg ra - s.reg rb ∧ t3.codesSay (s.reg ra - s.reg rb)

/-! ### Data movement -/

/-- LD (41_data_movement.md R154). -/
def Obligations.LdResult : Prop :=
  encodedAs 0x2000 0xF000 (fun w => .ld (regField11 w) (pcOffset9Field w)) ∧
  ∀ (dr : Reg) (off : Int) (s : State), ∃ t,
    exec (.ld dr off) s = .next t ∧
    s.loadDone s t dr (s.pcRelative9 off) (s.readWord (s.pcRelative9 off)) ∧
    (deviceAt s.platform.deviceMap (s.pcRelative9 off) = none → t.reg dr = s.peek (s.pcRelative9 off)) ∧
    (-256 ≤ off → off ≤ 255 → s.pcRelative9 off = wrappedSum s.pc off)

/-- LDI: the data is read, after the pointer, at the address the pointer holds (41_data_movement.md R155). -/
def Obligations.LdiResult : Prop :=
  encodedAs 0xA000 0xF000 (fun w => .ldi (regField11 w) (pcOffset9Field w)) ∧
  ∀ (dr : Reg) (off : Int) (s : State), ∃ t,
    exec (.ldi dr off) s = .next t ∧
    s.loadDone (s.afterRead (s.pcRelative9 off)) t dr (s.readWord (s.pcRelative9 off))
      ((s.afterRead (s.pcRelative9 off)).readWord (s.readWord (s.pcRelative9 off))) ∧
    (s.platform.deviceMap = .empty → t.reg dr = s.peek (s.peek (s.pcRelative9 off))) ∧
    (-256 ≤ off → off ≤ 255 → s.pcRelative9 off = wrappedSum s.pc off)

/-- LDR: the base is read before DR is written (41_data_movement.md R156). -/
def Obligations.LdrResult : Prop :=
  encodedAs 0x6000 0xF000 (fun w => .ldr (regField11 w) (regField8 w) (offset6Field w)) ∧
  ∀ (dr base : Reg) (off : Int) (s : State), ∃ t,
    exec (.ldr dr base off) s = .next t ∧
    s.loadDone s t dr (s.baseOffset base off) (s.readWord (s.baseOffset base off)) ∧
    (deviceAt s.platform.deviceMap (s.baseOffset base off) = none → t.reg dr = s.peek (s.baseOffset base off)) ∧
    (-32 ≤ off → off ≤ 31 → s.baseOffset base off = wrappedSum (s.reg base) off)

/-- ST (41_data_movement.md R157). -/
def Obligations.StResult : Prop :=
  encodedAs 0x3000 0xF000 (fun w => .st (regField11 w) (pcOffset9Field w)) ∧
  ∀ (sr : Reg) (off : Int) (s : State), ∃ t,
    exec (.st sr off) s = .next t ∧ s.storeDone s t (s.pcRelative9 off) (s.reg sr) ∧
    (-256 ≤ off → off ≤ 255 → s.pcRelative9 off = wrappedSum s.pc off)

/-- STI (41_data_movement.md R158). -/
def Obligations.StiResult : Prop :=
  encodedAs 0xB000 0xF000 (fun w => .sti (regField11 w) (pcOffset9Field w)) ∧
  ∀ (sr : Reg) (off : Int) (s : State), ∃ t,
    exec (.sti sr off) s = .next t ∧
    s.storeDone (s.afterRead (s.pcRelative9 off)) t (s.readWord (s.pcRelative9 off)) (s.reg sr) ∧
    (s.platform.deviceMap = .empty → s.onlyWordWritten t (s.peek (s.pcRelative9 off)) (s.reg sr)) ∧
    (-256 ≤ off → off ≤ 255 → s.pcRelative9 off = wrappedSum s.pc off)

/-- STR (41_data_movement.md R159). -/
def Obligations.StrResult : Prop :=
  encodedAs 0x7000 0xF000 (fun w => .str (regField11 w) (regField8 w) (offset6Field w)) ∧
  ∀ (sr base : Reg) (off : Int) (s : State), ∃ t,
    exec (.str sr base off) s = .next t ∧ s.storeDone s t (s.baseOffset base off) (s.reg sr) ∧
    (-32 ≤ off → off ≤ 31 → s.baseOffset base off = wrappedSum (s.reg base) off)

/-- LEA: the address itself is loaded, no memory is read, and the codes say its sign (41_data_movement.md R160, R163).
LEA_SETS_CC = true is a decision of the spec (log 11). -/
def Obligations.LeaResult : Prop :=
  encodedAs 0xE000 0xF000 (fun w => .lea (regField11 w) (pcOffset9Field w)) ∧
  ∀ (dr : Reg) (off : Int) (s : State), -256 ≤ off → off ≤ 255 → ∃ t,
    exec (.lea dr off) s = .next t ∧ s.resultWritten t dr (wrappedSum s.pc off)

/-! ### Control -/

/-- BR (42_control.md R180): the PC alone changes, to the sum when a tested code is set. -/
def Obligations.BrResult : Prop :=
  encodedAs 0x0000 0xF000 (fun w => .br (w.getLsbD 11) (w.getLsbD 10) (w.getLsbD 9) (pcOffset9Field w)) ∧
  ∀ (n z p : Bool) (off : Int) (s : State), -256 ≤ off → off ≤ 255 → ∃ t,
    exec (.br n z p off) s = .next t ∧ t = { s with pc := t.pc } ∧
    t.pc = if (n = true ∧ s.codeN = true) ∨ (z = true ∧ s.codeZ = true) ∨ (p = true ∧ s.codeP = true)
      then wrappedSum s.pc off else s.pc

/-- BR corner cases (42_control.md R181): BRnzp always branches when a code is set; nzp = 000 never does; the two-letter
forms test the sign of the value that set the codes; offset -1 is the BR itself and offset 0 the next instruction; with
no code set even BRnzp does not branch. R181 is the spec's own inference. -/
def Obligations.BrCornerCases : Prop :=
  (∀ (off : Int) (s : State), s.codesOneHot →
    exec (.br true true true off) s = .next { s with pc := s.pcRelative9 off }) ∧
  (∀ (off : Int) (s : State), exec (.br false false false off) s = .next s) ∧
  (∀ (off : Int) (s : State) (v : Word),
    exec (.br false true true off) (s.setCC v) =
      .next { s.setCC v with pc := if 0 ≤ v.toInt then s.pcRelative9 off else s.pc } ∧
    exec (.br true true false off) (s.setCC v) =
      .next { s.setCC v with pc := if v.toInt ≤ 0 then s.pcRelative9 off else s.pc } ∧
    exec (.br true false true off) (s.setCC v) =
      .next { s.setCC v with pc := if v.toInt ≠ 0 then s.pcRelative9 off else s.pc }) ∧
  (∀ s : State, s.afterFetch.pcRelative9 (-1) = s.pc) ∧
  (∀ (n z p : Bool) (s : State), exec (.br n z p 0) s = .next s) ∧
  (∀ (off : Int) (s : State), s.codeN = false → s.codeZ = false → s.codeP = false →
    exec (.br true true true off) s = .next s)

/-- JMP, and RET as the word xC1C0 (42_control.md R184, R185): the PC alone changes, to the register. -/
def Obligations.JmpAndRetResult : Prop :=
  encodedAs 0xC000 0xFE3F (fun w => .jmp (regField8 w)) ∧
  (∀ (base : Reg) (s : State), exec (.jmp base) s = .next { s with pc := s.reg base }) ∧
  decode 0xC1C0 = .instruction (.jmp .r7) ∧
  ∀ s : State, ∃ t, exec (.jmp .r7) s = .next t ∧ t.pc = s.reg .r7 ∧ t.psr = s.psr ∧ ∀ r, t.reg r = s.reg r

/-- JSR (42_control.md R186): R7 is the incremented PC, the PC is the sum, nothing else changes.
The opcode 0100 is not in the sources (log 15). -/
def Obligations.JsrResult : Prop :=
  encodedAs 0x4800 0xF800 (fun w => .jsr (pcOffset11Field w)) ∧
  ∀ (off : Int) (s : State), -1024 ≤ off → off ≤ 1023 → ∃ t,
    exec (.jsr off) s = .next t ∧ s.onlyRegWritten t .r7 s.pc ∧
    t.pc = wrappedSum s.pc off ∧ t = { s with regs := t.regs, pc := t.pc }

/-- JSRR (42_control.md R187, R188): R7 is the incremented PC; the PC is the base register, and for base R7 the value just
written, so that JSRR R7 falls through.
The encoding is not in the sources (log 15); the order of R188 is the spec's decision (log 16). -/
def Obligations.JsrrResult : Prop :=
  encodedAs 0x4000 0xFE3F (fun w => .jsrr (regField8 w)) ∧
  ∀ (base : Reg) (s : State), ∃ t,
    exec (.jsrr base) s = .next t ∧ s.onlyRegWritten t .r7 s.pc ∧
    (base ≠ .r7 → t.pc = s.reg base) ∧ (base = .r7 → t.pc = s.pc) ∧ t = { s with regs := t.regs, pc := t.pc }

/-- A JSR and then a RET come back to the instruction after the JSR with every register but R7 unchanged
(42_control.md R185, R186, R189). -/
def Obligations.RetReturnsFromJsr : Prop :=
  ∀ (off : Int) (s : State), ∃ t u,
    exec (.jsr off) s = .next t ∧ exec (.jmp .r7) t.afterFetch = .next u ∧ u.pc = s.pc ∧
    (∀ r, r ≠ .r7 → u.reg r = s.reg r) ∧ u.psr = s.psr ∧ s.sameMemory u

/-! ### Traps and host services -/

/-- TRAP through the trap table, for every vector without a host service (42_control.md R190): R7 links, the PC is the
table entry, no code and no PSR bit changes.
The link in R7 is the spec's decision (log 23); sign extension of the
vector is its value of record (log 5). -/
def Obligations.TrapVectoredResult : Prop :=
  encodedAs 0xF000 0xFF00 (fun w => .trap (trapVect8Field w)) ∧
  ∀ (vector : Nat) (s : State), vector < 256 →
    (s.platform.trapModel = .vectored ∨ (vector ≠ 0x21 ∧ vector ≠ 0x23 ∧ vector ≠ 0x25)) → ∃ t,
    exec (.trap vector) s = .next t ∧ s.onlyRegWritten t .r7 s.pc ∧ t.psr = s.psr ∧
    t.pc = s.readWord (trapTableAddress vector) ∧ (vector < 0x80 → t.pc = s.peek (BitVec.ofNat 16 vector)) ∧
    (0x80 ≤ vector → s.platform.deviceMap = .empty → t.pc = s.peek (BitVec.ofNat 16 (vector + 0xFF00))) ∧
    t.mar = trapTableAddress vector ∧ t.mdr = t.pc ∧ s.sameMemory t ∧ s.sameSystem t ∧ t.output = s.output ∧
    (s.afterRead (trapTableAddress vector)).sameDevices t ∧
    (s.platform.deviceMap = .empty → s.sameDevices t)

/-- TRAP x21 as a host service (60_exceptions.md R226, R227): the low byte of R0 is output; R7 links; exactly one code is
set afterwards, which one is a free value.
R0 as the character's register and the link in R7 are the spec's decisions (log 23); the code is free (log 8). -/
def Obligations.TrapOutputsCharacter : Prop :=
  ∀ s : State, s.platform.trapModel = .hostService → ∃ t,
    exec (.trap 0x21) s = .next t ∧ s.onlyRegWritten t .r7 s.pc ∧
    t.output = s.output ++ [(s.reg .r0).extractLsb' 0 8] ∧ t.codesOneHot ∧ s.samePsrAboveCodes t ∧
    t = { s with regs := t.regs, psr := t.psr, output := t.output, freeIndex := t.freeIndex }

/-- TRAP x23 as a host service (60_exceptions.md R226, R228): R0 is the character with bits 15:8 zero, the character leaves
the input, the echo is output; with no input the instruction waits and nothing happens.
R0 as the character's register and the link in R7 are the spec's decisions (log 23); the echo (log 7) and the code
(log 8) are free. -/
def Obligations.TrapInputsCharacter : Prop :=
  ∀ s : State, s.platform.trapModel = .hostService →
    (s.input = [] → exec (.trap 0x23) s = .fault .waitingForInput) ∧
    ∀ c rest, s.input = c :: rest → ∃ t,
      exec (.trap 0x23) s = .next t ∧
      (∀ r, t.reg r = if r = .r0 then c.setWidth 16 else if r = .r7 then s.pc else s.reg r) ∧
      t.input = rest ∧ t.output = s.output ++ Config.inEcho c ∧ t.codesOneHot ∧ s.samePsrAboveCodes t ∧
      t = { s with regs := t.regs, psr := t.psr, input := t.input, output := t.output, freeIndex := t.freeIndex }

/-- TRAP x25 as a host service ends the run: R7 links, the PC stays, and the machine takes no further step
(60_exceptions.md R226, R229).
The halted flag is the model's form of the outcome Halted (log 17); the link in R7 is the spec's decision (log 23). -/
def Obligations.TrapHaltsTheRun : Prop :=
  ∀ s : State, s.platform.trapModel = .hostService → ∃ t,
    exec (.trap 0x25) s = .next t ∧ t.halted = true ∧ step t = .fault .halted ∧ s.onlyRegWritten t .r7 s.pc ∧
    t.codesOneHot ∧ s.samePsrAboveCodes t ∧
    t = { s with regs := t.regs, psr := t.psr, halted := true, freeIndex := t.freeIndex }

/-! ### The supervisor stack, exceptions and interrupts -/

/-- A push subtracts 1 from R6 and writes at R6; a pop reads at R6 and adds 1; neither changes another register; a pop
after a push gives the value and restores R6 (60_exceptions.md R220). R220 is the spec's own inference. -/
def Obligations.SupervisorStackPushAndPop : Prop :=
  ∀ (s : State) (v : Word),
    (s.push v).reg .r6 = s.reg .r6 - 1 ∧ (∀ r, r ≠ .r6 → (s.push v).reg r = s.reg r) ∧
    (deviceAt s.platform.deviceMap (s.reg .r6 - 1) = none →
      s.onlyWordWritten (s.push v) (s.reg .r6 - 1) v ∧ (s.push v).popValue = v) ∧
    s.popValue = s.readWord (s.reg .r6) ∧ s.afterPop.reg .r6 = s.reg .r6 + 1 ∧
    (∀ r, r ≠ .r6 → s.afterPop.reg r = s.reg r) ∧ s.sameMemory s.afterPop ∧
    ∀ r, (s.push v).afterPop.reg r = s.reg r

/-- The entry sequence (60_exceptions.md R219, R221, R222), for a table entry that is plain memory.
The stack exchange is log 10, the table log 14. -/
def Obligations.EntrySequence : Prop :=
  ∀ (s : State) (code : Byte) (savedPc : Word),
    s.entered (s.enter code savedPc) (0x0100 + code.setWidth 16) savedPc

/-- RTI in User mode, once the exception's table entry has been written, takes the privilege mode violation through x0100;
the pushed PC is the RTI's address or the next, which one is open (60_exceptions.md R212, R215, R223). Which PC is log 6,
the vector log 14, the stack exchange that `entered` says log 10, the premise log 29. -/
def Obligations.RtiInUserModeTraps : Prop :=
  ∀ s : State, s.userMode = true → (Memory.lookup s.mem 0x0100).isSome = true → ∃ t savedPc,
    exec .rti s = .next t ∧ s.entered t 0x0100 savedPc ∧ (savedPc = s.pc - 1 ∨ savedPc = s.pc) ∧ t.userMode = false

/-- A word with opcode 1101, whatever its other bits, once the exception's table entry has been written, takes the illegal
opcode exception through x0101 (60_exceptions.md R213, R215, R223). The exception and its vector are the spec's decisions
(log 14); which PC is pushed is free (log 6); the stack exchange that `entered` says is log 10, the premise log 29. -/
def Obligations.UnusedOpcodeTraps : Prop :=
  encodedAs 0xD000 0xF000 (fun w => .unusedOpcode (w.extractLsb' 0 12)) ∧
  ∀ s : State, (Memory.lookup s.mem 0x0101).isSome = true → ∃ t savedPc,
    (∀ anyBits, exec (.unusedOpcode anyBits) s = .next t) ∧ s.entered t 0x0101 savedPc ∧
    (savedPc = s.pc - 1 ∨ savedPc = s.pc) ∧ t.userMode = false

/-- While the table entry of an exception has never been written, the exception would jump to an unknown address and is
reported as a fault (70_reset_and_hazards.md R252). The fault carries the state at the raise: the PC is incremented and
nothing else that a program sees is changed (60_exceptions.md R223, 70_reset_and_hazards.md R253). That the supervisor stack pointer counts as set up from reset is
the model's choice (log 29). -/
def Obligations.ExceptionNotSetUpIsAFault : Prop :=
  ∀ s : State,
    (s.userMode = true → Memory.lookup s.mem 0x0100 = none →
      exec .rti s = .fault (.exception .privilegeModeViolation s)) ∧
    (Memory.lookup s.mem 0x0101 = none →
      ∀ anyBits, exec (.unusedOpcode anyBits) s = .fault (.exception .illegalOpcode s)) ∧
    ∀ cause t, step s = .fault (.exception cause t) →
      t.pc = s.pc + 1 ∧ (∀ r, t.reg r = s.reg r) ∧ t.psr = s.psr ∧ s.sameMemory t ∧ t.savedSsp = s.savedSsp ∧
      t.savedUsp = s.savedUsp ∧ t.halted = false ∧ t.platform = s.platform ∧ t.output = s.output ∧
      t.ir = s.readWord s.pc ∧ (s.afterRead s.pc).sameDevices t ∧
      (s.platform.deviceMap = .empty → s.sameDevices t)

/-- RTI in Supervisor mode (42_control.md R194, 60_exceptions.md R221): the PC and then the PSR are popped; when the popped
PSR is a User-mode one, R6 is kept in Saved_SSP and becomes Saved_USP; no memory location changes.
The encoding is log 15, the stack exchange log 10, the popped word loaded whole log 13. -/
def Obligations.RtiInSupervisorModeReturns : Prop :=
  encodedAs 0x8000 0xFFFF (fun _ => .rti) ∧
  ∀ s : State, s.userMode = false → ∃ t,
    exec .rti s = .next t ∧
    t.pc = s.readWord (s.reg .r6) ∧ t.psr = (s.afterRead (s.reg .r6)).readWord (s.reg .r6 + 1) ∧
    (∀ r, t.reg r = if r = .r6 then (if t.userMode then s.savedUsp else s.reg .r6 + 2) else s.reg r) ∧
    t.savedSsp = (if t.userMode then s.reg .r6 + 2 else s.savedSsp) ∧ t.savedUsp = s.savedUsp ∧
    s.sameMemory t ∧ t.ir = s.ir ∧ t.halted = s.halted ∧ t.platform = s.platform ∧ t.output = s.output ∧
    ((s.afterRead (s.reg .r6)).afterRead (s.reg .r6 + 1)).sameDevices t ∧
    (s.platform.deviceMap = .empty →
      t.pc = s.peek (s.reg .r6) ∧ t.psr = s.peek (s.reg .r6 + 1) ∧ s.sameDevices t)

/-- An RTI right after an entry sequence restores the interrupted program: the pushed PC, the PSR, every general register
and the supervisor stack pointer (60_exceptions.md R224). The stack exchange is log 10. -/
def Obligations.RtiUndoesTheEntry : Prop :=
  ∀ (s : State) (code : Byte) (savedPc : Word), s.platform.deviceMap = .empty → ∃ t,
    exec .rti (s.enter code savedPc) = .next t ∧ t.pc = savedPc ∧ t.psr = s.psr ∧ (∀ r, t.reg r = s.reg r) ∧
    t.savedSsp = s.savedSsp ∧ t.savedUsp = (if s.userMode then s.reg .r6 else s.savedUsp)

/-- The keyboard interrupt, on a platform that has it (60_exceptions.md R217): taken before the fetch when it is requested
above the running priority, through x0180, with the PC of the instruction about to be fetched pushed and then the
priority set to 4; of the PSR only bits 15 and 10:8 change (R217, R219). General knowledge in the spec; that the entry is
a step of its own is the model's choice (log 20); the stack exchange is log 10, the table log 14. -/
def Obligations.KeyboardInterruptIsTaken : Prop :=
  ∀ s : State, s.halted = false → s.clockEnabled = true → s.platform.interruptSources = .keyboard →
    s.kbsr.getLsbD 15 = true → s.kbsr.getLsbD 14 = true → s.priority < 4 →
    ∃ e t, s.entered e 0x0180 s.pc ∧ step s = .next t ∧ t = { e with psr := t.psr } ∧
      t.psr = (s.psr &&& 0x78FF) ||| 0x0400 ∧ t.priority = 4 ∧
      t.userMode = false ∧ t.codeN = s.codeN ∧ t.codeZ = s.codeZ ∧ t.codeP = s.codeP

/-- Without a source, or at a priority not below 4, no interrupt is granted (60_exceptions.md R216, R217).
General knowledge in the spec (log 20). -/
def Obligations.NoInterruptWithoutRequest : Prop :=
  ∀ s : State,
    s.platform.interruptSources = .none ∨ s.kbsr.getLsbD 15 = false ∨ s.kbsr.getLsbD 14 = false ∨ ¬ s.priority < 4 →
    s.interruptGranted = false

/-! ### Ends of a run and devices -/

/-- A halted machine takes no further step (60_exceptions.md R229, 70_reset_and_hazards.md R253).
The flag and the fault are the model's form of the outcome Halted (log 17). -/
def Obligations.HaltedTakesNoStep : Prop := ∀ s : State, s.halted = true → step s = .fault .halted

/-- The device registers of the customary map (20_memory.md R78). Before an access the keyboard may present the next
character: KBDR then holds it with bits 15:8 zero, KBSR[15] is set, and the character leaves the input; a busy display may become
ready: DSR[15] is then set and no other bit of DSR changes. A read of KBSR or DSR answers the register as it then stands,
and a write of it sets bit 14 and not bit 15, which only the device sets. Reading KBDR
answers it as it then stands, so the waiting character while KBSR[15] is set, and clears KBSR[15]; writing DDR outputs the
low 8 bits and clears DSR[15]; clearing MCR[15] stops the processor. No memory location changes. General knowledge in the
spec; the bits it leaves open are log 18, when the keyboard and the display act log 19, that its characters come from
the input stream and the display's go to the output stream log 26, the stopped clock log 28. -/
def Obligations.CustomaryDeviceRegisters : Prop :=
  ∀ s : State, s.platform.deviceMap = .customary → s.Inv →
    (∀ c rest, s.input = c :: rest →
      let presented := !s.kbsr.getLsbD 15 && Config.keyboardDelivers s.freeIndex
      s.keyboardEvent.kbdr = (if presented then c.setWidth 16 else s.kbdr) ∧
      s.keyboardEvent.kbsr.getLsbD 15 = (presented || s.kbsr.getLsbD 15) ∧
      s.keyboardEvent.input = (if presented then rest else c :: rest)) ∧
    (s.displayEvent.dsr.getLsbD 15 = (s.dsr.getLsbD 15 || Config.displayRecovers s.freeIndex) ∧
      (∀ i, i ≠ 15 → s.displayEvent.dsr.getLsbD i = s.dsr.getLsbD i) ∧
      s.readWord 0xFE04 = s.displayEvent.dsr ∧ s.readWord 0xFE00 = s.keyboardEvent.kbsr) ∧
    (s.readWord 0xFE02 = s.keyboardEvent.kbdr ∧ (s.kbsr.getLsbD 15 = true → s.readWord 0xFE02 = s.kbdr) ∧
      (s.readWord 0xFE02).extractLsb' 8 8 = 0 ∧ (s.afterRead 0xFE02).kbsr.getLsbD 15 = false) ∧
    (∀ v, (s.writeWord 0xFE06 v).output = s.output ++ [v.extractLsb' 0 8] ∧
      (s.writeWord 0xFE06 v).dsr.getLsbD 15 = false ∧ s.sameMemory (s.writeWord 0xFE06 v)) ∧
    (∀ v, s.halted = false → v.getLsbD 15 = false → step (s.writeWord 0xFFFE v) = .fault .clockStopped) ∧
    (∀ v, (s.writeWord 0xFE00 v).kbsr.getLsbD 14 = v.getLsbD 14 ∧
      (s.writeWord 0xFE00 v).kbsr.getLsbD 15 = s.keyboardEvent.kbsr.getLsbD 15 ∧
      (s.writeWord 0xFE04 v).dsr.getLsbD 14 = v.getLsbD 14 ∧
      (s.writeWord 0xFE04 v).dsr.getLsbD 15 = s.displayEvent.dsr.getLsbD 15)
end

