-- ==== Sys2Proof/Laws/State.lean ====
section
/-! SUPPORT. One lemma for each field of State and each update of it, so that no later proof unfolds a record
update, and the accessors through them. -/

namespace Sys2Proof.Machine

/-! ### The register file -/

theorem Regs.get_set (g : Regs) (r q : Reg) (v : Word) : (g.set r v).get q = if q = r then v else g.get q := by
  cases r <;> cases q <;> rfl

/-! ### setReg -/

@[simp] theorem State.setReg_regs (s : State) (r : Reg) (v : Word) : (s.setReg r v).regs = s.regs.set r v := rfl
@[simp] theorem State.setReg_pc (s : State) (r : Reg) (v : Word) : (s.setReg r v).pc = s.pc := rfl
@[simp] theorem State.setReg_psr (s : State) (r : Reg) (v : Word) : (s.setReg r v).psr = s.psr := rfl
@[simp] theorem State.setReg_savedSsp (s : State) (r : Reg) (v : Word) : (s.setReg r v).savedSsp = s.savedSsp := rfl
@[simp] theorem State.setReg_savedUsp (s : State) (r : Reg) (v : Word) : (s.setReg r v).savedUsp = s.savedUsp := rfl
@[simp] theorem State.setReg_ir (s : State) (r : Reg) (v : Word) : (s.setReg r v).ir = s.ir := rfl
@[simp] theorem State.setReg_mar (s : State) (r : Reg) (v : Word) : (s.setReg r v).mar = s.mar := rfl
@[simp] theorem State.setReg_mdr (s : State) (r : Reg) (v : Word) : (s.setReg r v).mdr = s.mdr := rfl
@[simp] theorem State.setReg_mem (s : State) (r : Reg) (v : Word) : (s.setReg r v).mem = s.mem := rfl
@[simp] theorem State.setReg_input (s : State) (r : Reg) (v : Word) : (s.setReg r v).input = s.input := rfl
@[simp] theorem State.setReg_output (s : State) (r : Reg) (v : Word) : (s.setReg r v).output = s.output := rfl
@[simp] theorem State.setReg_halted (s : State) (r : Reg) (v : Word) : (s.setReg r v).halted = s.halted := rfl
@[simp] theorem State.setReg_kbsr (s : State) (r : Reg) (v : Word) : (s.setReg r v).kbsr = s.kbsr := rfl
@[simp] theorem State.setReg_kbdr (s : State) (r : Reg) (v : Word) : (s.setReg r v).kbdr = s.kbdr := rfl
@[simp] theorem State.setReg_dsr (s : State) (r : Reg) (v : Word) : (s.setReg r v).dsr = s.dsr := rfl
@[simp] theorem State.setReg_ddr (s : State) (r : Reg) (v : Word) : (s.setReg r v).ddr = s.ddr := rfl
@[simp] theorem State.setReg_mcr (s : State) (r : Reg) (v : Word) : (s.setReg r v).mcr = s.mcr := rfl
@[simp] theorem State.setReg_platform (s : State) (r : Reg) (v : Word) : (s.setReg r v).platform = s.platform := rfl
@[simp] theorem State.setReg_freeIndex (s : State) (r : Reg) (v : Word) : (s.setReg r v).freeIndex = s.freeIndex := rfl

/-! ### setCode -/

@[simp] theorem State.setCode_regs (s : State) (c : ConditionCode) : (s.setCode c).regs = s.regs := rfl
@[simp] theorem State.setCode_pc (s : State) (c : ConditionCode) : (s.setCode c).pc = s.pc := rfl
@[simp] theorem State.setCode_psr (s : State) (c : ConditionCode) : (s.setCode c).psr = (s.psr &&& 0xFFF8) ||| codeBits c := rfl
@[simp] theorem State.setCode_savedSsp (s : State) (c : ConditionCode) : (s.setCode c).savedSsp = s.savedSsp := rfl
@[simp] theorem State.setCode_savedUsp (s : State) (c : ConditionCode) : (s.setCode c).savedUsp = s.savedUsp := rfl
@[simp] theorem State.setCode_ir (s : State) (c : ConditionCode) : (s.setCode c).ir = s.ir := rfl
@[simp] theorem State.setCode_mar (s : State) (c : ConditionCode) : (s.setCode c).mar = s.mar := rfl
@[simp] theorem State.setCode_mdr (s : State) (c : ConditionCode) : (s.setCode c).mdr = s.mdr := rfl
@[simp] theorem State.setCode_mem (s : State) (c : ConditionCode) : (s.setCode c).mem = s.mem := rfl
@[simp] theorem State.setCode_input (s : State) (c : ConditionCode) : (s.setCode c).input = s.input := rfl
@[simp] theorem State.setCode_output (s : State) (c : ConditionCode) : (s.setCode c).output = s.output := rfl
@[simp] theorem State.setCode_halted (s : State) (c : ConditionCode) : (s.setCode c).halted = s.halted := rfl
@[simp] theorem State.setCode_kbsr (s : State) (c : ConditionCode) : (s.setCode c).kbsr = s.kbsr := rfl
@[simp] theorem State.setCode_kbdr (s : State) (c : ConditionCode) : (s.setCode c).kbdr = s.kbdr := rfl
@[simp] theorem State.setCode_dsr (s : State) (c : ConditionCode) : (s.setCode c).dsr = s.dsr := rfl
@[simp] theorem State.setCode_ddr (s : State) (c : ConditionCode) : (s.setCode c).ddr = s.ddr := rfl
@[simp] theorem State.setCode_mcr (s : State) (c : ConditionCode) : (s.setCode c).mcr = s.mcr := rfl
@[simp] theorem State.setCode_platform (s : State) (c : ConditionCode) : (s.setCode c).platform = s.platform := rfl
@[simp] theorem State.setCode_freeIndex (s : State) (c : ConditionCode) : (s.setCode c).freeIndex = s.freeIndex := rfl

/-! ### setCC -/

@[simp] theorem State.setCC_regs (s : State) (v : Word) : (s.setCC v).regs = s.regs := rfl
@[simp] theorem State.setCC_pc (s : State) (v : Word) : (s.setCC v).pc = s.pc := rfl
@[simp] theorem State.setCC_psr (s : State) (v : Word) : (s.setCC v).psr = (s.psr &&& 0xFFF8) ||| codeBits (codeOf v) := rfl
@[simp] theorem State.setCC_savedSsp (s : State) (v : Word) : (s.setCC v).savedSsp = s.savedSsp := rfl
@[simp] theorem State.setCC_savedUsp (s : State) (v : Word) : (s.setCC v).savedUsp = s.savedUsp := rfl
@[simp] theorem State.setCC_ir (s : State) (v : Word) : (s.setCC v).ir = s.ir := rfl
@[simp] theorem State.setCC_mar (s : State) (v : Word) : (s.setCC v).mar = s.mar := rfl
@[simp] theorem State.setCC_mdr (s : State) (v : Word) : (s.setCC v).mdr = s.mdr := rfl
@[simp] theorem State.setCC_mem (s : State) (v : Word) : (s.setCC v).mem = s.mem := rfl
@[simp] theorem State.setCC_input (s : State) (v : Word) : (s.setCC v).input = s.input := rfl
@[simp] theorem State.setCC_output (s : State) (v : Word) : (s.setCC v).output = s.output := rfl
@[simp] theorem State.setCC_halted (s : State) (v : Word) : (s.setCC v).halted = s.halted := rfl
@[simp] theorem State.setCC_kbsr (s : State) (v : Word) : (s.setCC v).kbsr = s.kbsr := rfl
@[simp] theorem State.setCC_kbdr (s : State) (v : Word) : (s.setCC v).kbdr = s.kbdr := rfl
@[simp] theorem State.setCC_dsr (s : State) (v : Word) : (s.setCC v).dsr = s.dsr := rfl
@[simp] theorem State.setCC_ddr (s : State) (v : Word) : (s.setCC v).ddr = s.ddr := rfl
@[simp] theorem State.setCC_mcr (s : State) (v : Word) : (s.setCC v).mcr = s.mcr := rfl
@[simp] theorem State.setCC_platform (s : State) (v : Word) : (s.setCC v).platform = s.platform := rfl
@[simp] theorem State.setCC_freeIndex (s : State) (v : Word) : (s.setCC v).freeIndex = s.freeIndex := rfl

/-! ### enterSupervisor -/

@[simp] theorem State.enterSupervisor_regs (s : State) : (s.enterSupervisor).regs = s.regs := rfl
@[simp] theorem State.enterSupervisor_pc (s : State) : (s.enterSupervisor).pc = s.pc := rfl
@[simp] theorem State.enterSupervisor_psr (s : State) : (s.enterSupervisor).psr = s.psr &&& 0x7FFF := rfl
@[simp] theorem State.enterSupervisor_savedSsp (s : State) : (s.enterSupervisor).savedSsp = s.savedSsp := rfl
@[simp] theorem State.enterSupervisor_savedUsp (s : State) : (s.enterSupervisor).savedUsp = s.savedUsp := rfl
@[simp] theorem State.enterSupervisor_ir (s : State) : (s.enterSupervisor).ir = s.ir := rfl
@[simp] theorem State.enterSupervisor_mar (s : State) : (s.enterSupervisor).mar = s.mar := rfl
@[simp] theorem State.enterSupervisor_mdr (s : State) : (s.enterSupervisor).mdr = s.mdr := rfl
@[simp] theorem State.enterSupervisor_mem (s : State) : (s.enterSupervisor).mem = s.mem := rfl
@[simp] theorem State.enterSupervisor_input (s : State) : (s.enterSupervisor).input = s.input := rfl
@[simp] theorem State.enterSupervisor_output (s : State) : (s.enterSupervisor).output = s.output := rfl
@[simp] theorem State.enterSupervisor_halted (s : State) : (s.enterSupervisor).halted = s.halted := rfl
@[simp] theorem State.enterSupervisor_kbsr (s : State) : (s.enterSupervisor).kbsr = s.kbsr := rfl
@[simp] theorem State.enterSupervisor_kbdr (s : State) : (s.enterSupervisor).kbdr = s.kbdr := rfl
@[simp] theorem State.enterSupervisor_dsr (s : State) : (s.enterSupervisor).dsr = s.dsr := rfl
@[simp] theorem State.enterSupervisor_ddr (s : State) : (s.enterSupervisor).ddr = s.ddr := rfl
@[simp] theorem State.enterSupervisor_mcr (s : State) : (s.enterSupervisor).mcr = s.mcr := rfl
@[simp] theorem State.enterSupervisor_platform (s : State) : (s.enterSupervisor).platform = s.platform := rfl
@[simp] theorem State.enterSupervisor_freeIndex (s : State) : (s.enterSupervisor).freeIndex = s.freeIndex := rfl

/-! ### setPriority -/

@[simp] theorem State.setPriority_regs (s : State) (level : BitVec 3) : (s.setPriority level).regs = s.regs := rfl
@[simp] theorem State.setPriority_pc (s : State) (level : BitVec 3) : (s.setPriority level).pc = s.pc := rfl
@[simp] theorem State.setPriority_psr (s : State) (level : BitVec 3) : (s.setPriority level).psr = (s.psr &&& 0xF8FF) ||| (level.setWidth 16 <<< 8) := rfl
@[simp] theorem State.setPriority_savedSsp (s : State) (level : BitVec 3) : (s.setPriority level).savedSsp = s.savedSsp := rfl
@[simp] theorem State.setPriority_savedUsp (s : State) (level : BitVec 3) : (s.setPriority level).savedUsp = s.savedUsp := rfl
@[simp] theorem State.setPriority_ir (s : State) (level : BitVec 3) : (s.setPriority level).ir = s.ir := rfl
@[simp] theorem State.setPriority_mar (s : State) (level : BitVec 3) : (s.setPriority level).mar = s.mar := rfl
@[simp] theorem State.setPriority_mdr (s : State) (level : BitVec 3) : (s.setPriority level).mdr = s.mdr := rfl
@[simp] theorem State.setPriority_mem (s : State) (level : BitVec 3) : (s.setPriority level).mem = s.mem := rfl
@[simp] theorem State.setPriority_input (s : State) (level : BitVec 3) : (s.setPriority level).input = s.input := rfl
@[simp] theorem State.setPriority_output (s : State) (level : BitVec 3) : (s.setPriority level).output = s.output := rfl
@[simp] theorem State.setPriority_halted (s : State) (level : BitVec 3) : (s.setPriority level).halted = s.halted := rfl
@[simp] theorem State.setPriority_kbsr (s : State) (level : BitVec 3) : (s.setPriority level).kbsr = s.kbsr := rfl
@[simp] theorem State.setPriority_kbdr (s : State) (level : BitVec 3) : (s.setPriority level).kbdr = s.kbdr := rfl
@[simp] theorem State.setPriority_dsr (s : State) (level : BitVec 3) : (s.setPriority level).dsr = s.dsr := rfl
@[simp] theorem State.setPriority_ddr (s : State) (level : BitVec 3) : (s.setPriority level).ddr = s.ddr := rfl
@[simp] theorem State.setPriority_mcr (s : State) (level : BitVec 3) : (s.setPriority level).mcr = s.mcr := rfl
@[simp] theorem State.setPriority_platform (s : State) (level : BitVec 3) : (s.setPriority level).platform = s.platform := rfl
@[simp] theorem State.setPriority_freeIndex (s : State) (level : BitVec 3) : (s.setPriority level).freeIndex = s.freeIndex := rfl

/-! ### poke -/

@[simp] theorem State.poke_regs (s : State) (a v : Word) : (s.poke a v).regs = s.regs := rfl
@[simp] theorem State.poke_pc (s : State) (a v : Word) : (s.poke a v).pc = s.pc := rfl
@[simp] theorem State.poke_psr (s : State) (a v : Word) : (s.poke a v).psr = s.psr := rfl
@[simp] theorem State.poke_savedSsp (s : State) (a v : Word) : (s.poke a v).savedSsp = s.savedSsp := rfl
@[simp] theorem State.poke_savedUsp (s : State) (a v : Word) : (s.poke a v).savedUsp = s.savedUsp := rfl
@[simp] theorem State.poke_ir (s : State) (a v : Word) : (s.poke a v).ir = s.ir := rfl
@[simp] theorem State.poke_mar (s : State) (a v : Word) : (s.poke a v).mar = s.mar := rfl
@[simp] theorem State.poke_mdr (s : State) (a v : Word) : (s.poke a v).mdr = s.mdr := rfl
@[simp] theorem State.poke_mem (s : State) (a v : Word) : (s.poke a v).mem = Memory.insert s.mem a.toNat v := rfl
@[simp] theorem State.poke_input (s : State) (a v : Word) : (s.poke a v).input = s.input := rfl
@[simp] theorem State.poke_output (s : State) (a v : Word) : (s.poke a v).output = s.output := rfl
@[simp] theorem State.poke_halted (s : State) (a v : Word) : (s.poke a v).halted = s.halted := rfl
@[simp] theorem State.poke_kbsr (s : State) (a v : Word) : (s.poke a v).kbsr = s.kbsr := rfl
@[simp] theorem State.poke_kbdr (s : State) (a v : Word) : (s.poke a v).kbdr = s.kbdr := rfl
@[simp] theorem State.poke_dsr (s : State) (a v : Word) : (s.poke a v).dsr = s.dsr := rfl
@[simp] theorem State.poke_ddr (s : State) (a v : Word) : (s.poke a v).ddr = s.ddr := rfl
@[simp] theorem State.poke_mcr (s : State) (a v : Word) : (s.poke a v).mcr = s.mcr := rfl
@[simp] theorem State.poke_platform (s : State) (a v : Word) : (s.poke a v).platform = s.platform := rfl
@[simp] theorem State.poke_freeIndex (s : State) (a v : Word) : (s.poke a v).freeIndex = s.freeIndex := rfl

/-! ### switchToSupervisorStack -/

@[simp] theorem State.switchToSupervisorStack_regs (s : State) : (s.switchToSupervisorStack).regs = s.regs.set .r6 s.savedSsp := rfl
@[simp] theorem State.switchToSupervisorStack_pc (s : State) : (s.switchToSupervisorStack).pc = s.pc := rfl
@[simp] theorem State.switchToSupervisorStack_psr (s : State) : (s.switchToSupervisorStack).psr = s.psr := rfl
@[simp] theorem State.switchToSupervisorStack_savedSsp (s : State) : (s.switchToSupervisorStack).savedSsp = s.savedSsp := rfl
@[simp] theorem State.switchToSupervisorStack_savedUsp (s : State) : (s.switchToSupervisorStack).savedUsp = s.reg .r6 := rfl
@[simp] theorem State.switchToSupervisorStack_ir (s : State) : (s.switchToSupervisorStack).ir = s.ir := rfl
@[simp] theorem State.switchToSupervisorStack_mar (s : State) : (s.switchToSupervisorStack).mar = s.mar := rfl
@[simp] theorem State.switchToSupervisorStack_mdr (s : State) : (s.switchToSupervisorStack).mdr = s.mdr := rfl
@[simp] theorem State.switchToSupervisorStack_mem (s : State) : (s.switchToSupervisorStack).mem = s.mem := rfl
@[simp] theorem State.switchToSupervisorStack_input (s : State) : (s.switchToSupervisorStack).input = s.input := rfl
@[simp] theorem State.switchToSupervisorStack_output (s : State) : (s.switchToSupervisorStack).output = s.output := rfl
@[simp] theorem State.switchToSupervisorStack_halted (s : State) : (s.switchToSupervisorStack).halted = s.halted := rfl
@[simp] theorem State.switchToSupervisorStack_kbsr (s : State) : (s.switchToSupervisorStack).kbsr = s.kbsr := rfl
@[simp] theorem State.switchToSupervisorStack_kbdr (s : State) : (s.switchToSupervisorStack).kbdr = s.kbdr := rfl
@[simp] theorem State.switchToSupervisorStack_dsr (s : State) : (s.switchToSupervisorStack).dsr = s.dsr := rfl
@[simp] theorem State.switchToSupervisorStack_ddr (s : State) : (s.switchToSupervisorStack).ddr = s.ddr := rfl
@[simp] theorem State.switchToSupervisorStack_mcr (s : State) : (s.switchToSupervisorStack).mcr = s.mcr := rfl
@[simp] theorem State.switchToSupervisorStack_platform (s : State) : (s.switchToSupervisorStack).platform = s.platform := rfl
@[simp] theorem State.switchToSupervisorStack_freeIndex (s : State) : (s.switchToSupervisorStack).freeIndex = s.freeIndex := rfl

/-! ### switchToUserStack -/

@[simp] theorem State.switchToUserStack_regs (s : State) : (s.switchToUserStack).regs = s.regs.set .r6 s.savedUsp := rfl
@[simp] theorem State.switchToUserStack_pc (s : State) : (s.switchToUserStack).pc = s.pc := rfl
@[simp] theorem State.switchToUserStack_psr (s : State) : (s.switchToUserStack).psr = s.psr := rfl
@[simp] theorem State.switchToUserStack_savedSsp (s : State) : (s.switchToUserStack).savedSsp = s.reg .r6 := rfl
@[simp] theorem State.switchToUserStack_savedUsp (s : State) : (s.switchToUserStack).savedUsp = s.savedUsp := rfl
@[simp] theorem State.switchToUserStack_ir (s : State) : (s.switchToUserStack).ir = s.ir := rfl
@[simp] theorem State.switchToUserStack_mar (s : State) : (s.switchToUserStack).mar = s.mar := rfl
@[simp] theorem State.switchToUserStack_mdr (s : State) : (s.switchToUserStack).mdr = s.mdr := rfl
@[simp] theorem State.switchToUserStack_mem (s : State) : (s.switchToUserStack).mem = s.mem := rfl
@[simp] theorem State.switchToUserStack_input (s : State) : (s.switchToUserStack).input = s.input := rfl
@[simp] theorem State.switchToUserStack_output (s : State) : (s.switchToUserStack).output = s.output := rfl
@[simp] theorem State.switchToUserStack_halted (s : State) : (s.switchToUserStack).halted = s.halted := rfl
@[simp] theorem State.switchToUserStack_kbsr (s : State) : (s.switchToUserStack).kbsr = s.kbsr := rfl
@[simp] theorem State.switchToUserStack_kbdr (s : State) : (s.switchToUserStack).kbdr = s.kbdr := rfl
@[simp] theorem State.switchToUserStack_dsr (s : State) : (s.switchToUserStack).dsr = s.dsr := rfl
@[simp] theorem State.switchToUserStack_ddr (s : State) : (s.switchToUserStack).ddr = s.ddr := rfl
@[simp] theorem State.switchToUserStack_mcr (s : State) : (s.switchToUserStack).mcr = s.mcr := rfl
@[simp] theorem State.switchToUserStack_platform (s : State) : (s.switchToUserStack).platform = s.platform := rfl
@[simp] theorem State.switchToUserStack_freeIndex (s : State) : (s.switchToUserStack).freeIndex = s.freeIndex := rfl

/-! ### The accessors through the updates -/

@[simp] theorem State.setReg_peek (s : State) (r : Reg) (v : Word) (b : Word) : (s.setReg r v).peek b = s.peek b := rfl
@[simp] theorem State.setCode_reg (s : State) (c : ConditionCode) (q : Reg) : (s.setCode c).reg q = s.reg q := rfl
@[simp] theorem State.setCode_peek (s : State) (c : ConditionCode) (b : Word) : (s.setCode c).peek b = s.peek b := rfl
@[simp] theorem State.setCC_reg (s : State) (v : Word) (q : Reg) : (s.setCC v).reg q = s.reg q := rfl
@[simp] theorem State.setCC_peek (s : State) (v : Word) (b : Word) : (s.setCC v).peek b = s.peek b := rfl
@[simp] theorem State.enterSupervisor_reg (s : State) (q : Reg) : (s.enterSupervisor).reg q = s.reg q := rfl
@[simp] theorem State.enterSupervisor_peek (s : State) (b : Word) : (s.enterSupervisor).peek b = s.peek b := rfl
@[simp] theorem State.setPriority_reg (s : State) (level : BitVec 3) (q : Reg) : (s.setPriority level).reg q = s.reg q := rfl
@[simp] theorem State.setPriority_peek (s : State) (level : BitVec 3) (b : Word) : (s.setPriority level).peek b = s.peek b := rfl
@[simp] theorem State.poke_reg (s : State) (a v : Word) (q : Reg) : (s.poke a v).reg q = s.reg q := rfl
@[simp] theorem State.switchToSupervisorStack_peek (s : State) (b : Word) : (s.switchToSupervisorStack).peek b = s.peek b := rfl
@[simp] theorem State.switchToUserStack_peek (s : State) (b : Word) : (s.switchToUserStack).peek b = s.peek b := rfl

@[simp] theorem State.setReg_reg (s : State) (r q : Reg) (v : Word) :
    (s.setReg r v).reg q = if q = r then v else s.reg q := Regs.get_set s.regs r q v

@[simp] theorem State.switchToSupervisorStack_reg (s : State) (q : Reg) :
    s.switchToSupervisorStack.reg q = if q = .r6 then s.savedSsp else s.reg q := Regs.get_set s.regs .r6 q s.savedSsp

@[simp] theorem State.switchToUserStack_reg (s : State) (q : Reg) :
    s.switchToUserStack.reg q = if q = .r6 then s.savedUsp else s.reg q := Regs.get_set s.regs .r6 q s.savedUsp

/-- A register is a function of the register file alone. -/
theorem State.reg_of_regs {s t : State} (h : t.regs = s.regs) (q : Reg) : t.reg q = s.reg q := by
  simp only [State.reg, h]

/-- A memory location is a function of the memory alone. -/
theorem State.peek_of_mem {s t : State} (h : t.mem = s.mem) (b : Word) : t.peek b = s.peek b := by
  simp only [State.peek, h]

end Sys2Proof.Machine
end

