-- ==== Sys2Proof/Laws/Flags.lean ====
section
/-! SUPPORT. The fields of the PSR through the operations that write them. -/

namespace Sys2Proof.Machine

/-! ### Bits of the PSR after a write of the condition codes -/

theorem State.setCode_psr_bit (s : State) (c : ConditionCode) {i : Nat} (h : 3 ≤ i) :
    (s.setCode c).psr.getLsbD i = s.psr.getLsbD i := by
  by_cases hi : i < 16
  · have : ∀ j : Fin 16, 3 ≤ j.val → (0xFFF8 : Word).getLsbD j = true ∧ (codeBits c).getLsbD j = false := by
      cases c <;> decide
    obtain ⟨h1, h2⟩ := this ⟨i, hi⟩ h
    simp only [State.setCode, BitVec.getLsbD_or, BitVec.getLsbD_and, h1, h2, Bool.and_true, Bool.or_false]
  · simp [BitVec.getLsbD_of_ge _ _ (Nat.le_of_not_lt hi)]

@[simp] theorem State.setCode_userMode (s : State) (c : ConditionCode) : (s.setCode c).userMode = s.userMode :=
  s.setCode_psr_bit c (by omega)

@[simp] theorem State.setCC_userMode (s : State) (v : Word) : (s.setCC v).userMode = s.userMode :=
  s.setCode_userMode _

theorem State.setCode_samePsrAboveCodes (s : State) (c : ConditionCode) : s.samePsrAboveCodes (s.setCode c) := by
  unfold State.samePsrAboveCodes
  apply BitVec.eq_of_getLsbD_eq
  intro i hi
  simp only [BitVec.getLsbD_extractLsb', s.setCode_psr_bit c (Nat.le_add_right 3 i)]

theorem State.setCode_codes (s : State) (c : ConditionCode) :
    (s.setCode c).codeN = (c == .n) ∧ (s.setCode c).codeZ = (c == .z) ∧ (s.setCode c).codeP = (c == .p) := by
  cases c <;> simp [State.codeN, State.codeZ, State.codeP, codeBits]

theorem State.setCode_codesOneHot (s : State) (c : ConditionCode) : (s.setCode c).codesOneHot := by
  obtain ⟨hn, hz, hp⟩ := s.setCode_codes c
  cases c <;> simp [State.codesOneHot, hn, hz, hp]

/-- The code that `setcc` picks is the sign of the value. -/
theorem codeOf_spec (v : Word) :
    (codeOf v == .n) = decide (v.toInt < 0) ∧ (codeOf v == .z) = decide (v.toInt = 0) ∧
      (codeOf v == .p) = decide (0 < v.toInt) := by
  have hsign : v.getLsbD 15 = decide (v.toInt < 0) := by
    rw [show v.getLsbD 15 = v.msb from rfl, BitVec.msb_eq_toInt]
  have hzero : v = 0 ↔ v.toInt = 0 := by
    rw [← BitVec.toInt_inj]; simp
  simp only [codeOf, hsign, hzero, decide_eq_true_eq]
  by_cases hn : v.toInt < 0
  · have : v.toInt ≠ 0 ∧ ¬ 0 < v.toInt := by omega
    simp [hn, this]
  · by_cases hz : v.toInt = 0
    · simp [hz]
    · have : 0 < v.toInt := by omega
      simp [hn, hz, this]

/-- `setcc(v)` leaves the codes that say the sign of `v`. -/
theorem State.setCC_codesSay (s : State) (v : Word) : (s.setCC v).codesSay v := by
  obtain ⟨hn, hz, hp⟩ := s.setCode_codes (codeOf v)
  obtain ⟨cn, cz, cp⟩ := codeOf_spec v
  exact ⟨hn.trans cn, hz.trans cz, hp.trans cp⟩

theorem State.setCC_codesOneHot (s : State) (v : Word) : (s.setCC v).codesOneHot := s.setCode_codesOneHot _

theorem State.setCC_samePsrAboveCodes (s : State) (v : Word) : s.samePsrAboveCodes (s.setCC v) :=
  s.setCode_samePsrAboveCodes _

/-- The codes are a function of the PSR alone. -/
theorem State.codesOneHot_of_psr {s t : State} (h : t.psr = s.psr) : t.codesOneHot ↔ s.codesOneHot := by
  simp only [State.codesOneHot, State.codeN, State.codeZ, State.codeP, h]

/-! ### Entering Supervisor mode and setting the priority -/

@[simp] theorem State.enterSupervisor_userMode (s : State) : s.enterSupervisor.userMode = false := by
  simp [State.userMode]

theorem State.enterSupervisor_psr_bit (s : State) {i : Nat} (h : i < 15) :
    s.enterSupervisor.psr.getLsbD i = s.psr.getLsbD i := by
  have : ∀ j : Fin 15, (0x7FFF : Word).getLsbD j = true := by decide
  have h1 := this ⟨i, h⟩
  simp only [State.enterSupervisor, BitVec.getLsbD_and, h1, Bool.and_true]

@[simp] theorem State.setPriority_userMode (s : State) (level : BitVec 3) :
    (s.setPriority level).userMode = s.userMode := by
  simp [State.userMode]

@[simp] theorem State.setPriority_priority (s : State) (level : BitVec 3) :
    (s.setPriority level).priority = level := by
  apply BitVec.eq_of_getLsbD_eq
  intro i hi
  interval_cases i <;> simp [State.priority]

theorem State.setPriority_codes (s : State) (level : BitVec 3) :
    (s.setPriority level).codeN = s.codeN ∧ (s.setPriority level).codeZ = s.codeZ ∧
      (s.setPriority level).codeP = s.codeP := by
  simp [State.codeN, State.codeZ, State.codeP]

theorem State.enterSupervisor_codes (s : State) :
    s.enterSupervisor.codeN = s.codeN ∧ s.enterSupervisor.codeZ = s.codeZ ∧
      s.enterSupervisor.codeP = s.codeP := by
  simp [State.codeN, State.codeZ, State.codeP]

end Sys2Proof.Machine
end

