-- ==== Sys2Proof/Laws/Memory.lean ====
section
/-! SUPPORT. Memory: a read after a write, and the canonical form is kept by every operation on memory. -/

namespace Sys2Proof.Machine

theorem Memory.lookup_insert (m : Memory) (a b : Nat) (v : Word) :
    Memory.lookup (Memory.insert m a v) b = if b = a then some v else Memory.lookup m b := by
  induction m with
  | nil => simp [Memory.insert, Memory.lookup, eq_comm]
  | cons cell rest ih =>
    obtain ⟨k, u⟩ := cell
    by_cases hlt : a < k
    · simp [Memory.insert, Memory.lookup, hlt, eq_comm]
    · by_cases hak : a = k
      · subst hak
        by_cases hb : a = b <;> simp [Memory.insert, Memory.lookup, hb, eq_comm]
      · by_cases hb : b = k
        · have : b ≠ a := fun h => hak (h ▸ hb)
          simp [Memory.insert, Memory.lookup, hlt, hak, hb, Ne.symm hak]
        · simp [Memory.insert, Memory.lookup, hlt, hak, hb, ih]

/-- The addresses after a write are the old ones and the one written. -/
theorem Memory.mem_keys_insert {m : Memory} {a k : Nat} {v : Word}
    (h : k ∈ (Memory.insert m a v).map Prod.fst) : k = a ∨ k ∈ m.map Prod.fst := by
  induction m with
  | nil => simpa [Memory.insert] using h
  | cons cell rest ih =>
    obtain ⟨c, u⟩ := cell
    by_cases hlt : a < c
    · simpa [Memory.insert, hlt] using h
    · by_cases hac : a = c
      · subst hac
        simp only [Memory.insert, lt_irrefl, if_false, if_true, List.map_cons, List.mem_cons] at h ⊢
        tauto
      · simp only [Memory.insert, hlt, hac, if_false, List.map_cons, List.mem_cons] at h ⊢
        rcases h with h | h
        · exact .inr (.inl h)
        · rcases ih h with h | h <;> tauto

theorem Memory.insert_rising {m : Memory} {a : Nat} {v : Word}
    (h : (m.map Prod.fst).Pairwise (· < ·)) : ((Memory.insert m a v).map Prod.fst).Pairwise (· < ·) := by
  induction m with
  | nil => simp [Memory.insert]
  | cons cell rest ih =>
    obtain ⟨c, u⟩ := cell
    simp only [List.map_cons, List.pairwise_cons] at h
    by_cases hlt : a < c
    · simp only [Memory.insert, hlt, if_true, List.map_cons, List.pairwise_cons, List.mem_cons]
      exact ⟨fun k hk => hk.elim (· ▸ hlt) fun hk => hlt.trans (h.1 k hk), h⟩
    · by_cases hac : a = c
      · subst hac
        simpa [Memory.insert] using h
      · simp only [Memory.insert, hlt, hac, if_false, List.map_cons, List.pairwise_cons]
        refine ⟨fun k hk => ?_, ih h.2⟩
        rcases Memory.mem_keys_insert hk with rfl | hk
        · omega
        · exact h.1 k hk

/-- A write keeps the canonical form. -/
theorem Memory.wf_insert {m : Memory} {a : Nat} {v : Word} (h : Memory.wf m) (ha : a < 2 ^ 16) :
    Memory.wf (Memory.insert m a v) := by
  refine ⟨Memory.insert_rising h.1, fun cell hc => ?_⟩
  rcases Memory.mem_keys_insert (List.mem_map_of_mem hc) with hk | hk
  · omega
  · obtain ⟨cell', hc', heq⟩ := List.mem_map.1 hk
    exact heq ▸ h.2 cell' hc'

theorem Memory.wf_reset : Memory.wf State.reset.mem := by decide

/-- Storing a word keeps the canonical form of a state's memory. -/
theorem State.poke_wf {s : State} (h : Memory.wf s.mem) (a v : Word) : Memory.wf (s.poke a v).mem :=
  Memory.wf_insert h a.isLt

/-- Placing a word for the fetch keeps the canonical form. -/
theorem State.withFetchWord_wf {s : State} (h : Memory.wf s.mem) (nbits w : Nat) :
    Memory.wf (s.withFetchWord nbits w).mem :=
  State.poke_wf h _ _

/-- A location after a store: the word stored there, the old one elsewhere. -/
@[simp] theorem State.poke_peek (s : State) (a v b : Word) : (s.poke a v).peek b = if b = a then v else s.peek b := by
  by_cases h : b = a
  · simp [State.peek, State.poke, Memory.lookup_insert, h]
  · have : b.toNat ≠ a.toNat := fun e => h (BitVec.eq_of_toNat_eq e)
    simp [State.peek, State.poke, Memory.lookup_insert, h, this]

end Sys2Proof.Machine
end

