-- ==== Sys2Proof/Laws/Access.lean ====
section
/-! SUPPORT. What the devices and the memory accesses can do: the fields they keep, what a read and a write leave,
and that they keep the invariant. -/

namespace Sys2Proof.Machine

/-! ### With no device attached -/

@[simp] theorem deviceAt_empty (a : Word) : deviceAt .empty a = none := rfl

theorem State.deviceTick_of_empty {s : State} (h : s.platform.deviceMap = .empty) : s.deviceTick = s := by
  simp only [State.deviceTick, h]

/-! ### The fields a device event keeps -/

@[simp] theorem State.keyboardEvent_regs (s : State) : s.keyboardEvent.regs = s.regs := by
  unfold State.keyboardEvent; repeat' split
  all_goals rfl
@[simp] theorem State.displayEvent_regs (s : State) : s.displayEvent.regs = s.regs := by
  unfold State.displayEvent; split <;> rfl
@[simp] theorem State.deviceTick_regs (s : State) : s.deviceTick.regs = s.regs := by
  unfold State.deviceTick; split
  · rfl
  · simp

@[simp] theorem State.keyboardEvent_pc (s : State) : s.keyboardEvent.pc = s.pc := by
  unfold State.keyboardEvent; repeat' split
  all_goals rfl
@[simp] theorem State.displayEvent_pc (s : State) : s.displayEvent.pc = s.pc := by
  unfold State.displayEvent; split <;> rfl
@[simp] theorem State.deviceTick_pc (s : State) : s.deviceTick.pc = s.pc := by
  unfold State.deviceTick; split
  · rfl
  · simp

@[simp] theorem State.keyboardEvent_psr (s : State) : s.keyboardEvent.psr = s.psr := by
  unfold State.keyboardEvent; repeat' split
  all_goals rfl
@[simp] theorem State.displayEvent_psr (s : State) : s.displayEvent.psr = s.psr := by
  unfold State.displayEvent; split <;> rfl
@[simp] theorem State.deviceTick_psr (s : State) : s.deviceTick.psr = s.psr := by
  unfold State.deviceTick; split
  · rfl
  · simp

@[simp] theorem State.keyboardEvent_savedSsp (s : State) : s.keyboardEvent.savedSsp = s.savedSsp := by
  unfold State.keyboardEvent; repeat' split
  all_goals rfl
@[simp] theorem State.displayEvent_savedSsp (s : State) : s.displayEvent.savedSsp = s.savedSsp := by
  unfold State.displayEvent; split <;> rfl
@[simp] theorem State.deviceTick_savedSsp (s : State) : s.deviceTick.savedSsp = s.savedSsp := by
  unfold State.deviceTick; split
  · rfl
  · simp

@[simp] theorem State.keyboardEvent_savedUsp (s : State) : s.keyboardEvent.savedUsp = s.savedUsp := by
  unfold State.keyboardEvent; repeat' split
  all_goals rfl
@[simp] theorem State.displayEvent_savedUsp (s : State) : s.displayEvent.savedUsp = s.savedUsp := by
  unfold State.displayEvent; split <;> rfl
@[simp] theorem State.deviceTick_savedUsp (s : State) : s.deviceTick.savedUsp = s.savedUsp := by
  unfold State.deviceTick; split
  · rfl
  · simp

@[simp] theorem State.keyboardEvent_ir (s : State) : s.keyboardEvent.ir = s.ir := by
  unfold State.keyboardEvent; repeat' split
  all_goals rfl
@[simp] theorem State.displayEvent_ir (s : State) : s.displayEvent.ir = s.ir := by
  unfold State.displayEvent; split <;> rfl
@[simp] theorem State.deviceTick_ir (s : State) : s.deviceTick.ir = s.ir := by
  unfold State.deviceTick; split
  · rfl
  · simp

@[simp] theorem State.keyboardEvent_mar (s : State) : s.keyboardEvent.mar = s.mar := by
  unfold State.keyboardEvent; repeat' split
  all_goals rfl
@[simp] theorem State.displayEvent_mar (s : State) : s.displayEvent.mar = s.mar := by
  unfold State.displayEvent; split <;> rfl
@[simp] theorem State.deviceTick_mar (s : State) : s.deviceTick.mar = s.mar := by
  unfold State.deviceTick; split
  · rfl
  · simp

@[simp] theorem State.keyboardEvent_mdr (s : State) : s.keyboardEvent.mdr = s.mdr := by
  unfold State.keyboardEvent; repeat' split
  all_goals rfl
@[simp] theorem State.displayEvent_mdr (s : State) : s.displayEvent.mdr = s.mdr := by
  unfold State.displayEvent; split <;> rfl
@[simp] theorem State.deviceTick_mdr (s : State) : s.deviceTick.mdr = s.mdr := by
  unfold State.deviceTick; split
  · rfl
  · simp

@[simp] theorem State.keyboardEvent_mem (s : State) : s.keyboardEvent.mem = s.mem := by
  unfold State.keyboardEvent; repeat' split
  all_goals rfl
@[simp] theorem State.displayEvent_mem (s : State) : s.displayEvent.mem = s.mem := by
  unfold State.displayEvent; split <;> rfl
@[simp] theorem State.deviceTick_mem (s : State) : s.deviceTick.mem = s.mem := by
  unfold State.deviceTick; split
  · rfl
  · simp

@[simp] theorem State.keyboardEvent_output (s : State) : s.keyboardEvent.output = s.output := by
  unfold State.keyboardEvent; repeat' split
  all_goals rfl
@[simp] theorem State.displayEvent_output (s : State) : s.displayEvent.output = s.output := by
  unfold State.displayEvent; split <;> rfl
@[simp] theorem State.deviceTick_output (s : State) : s.deviceTick.output = s.output := by
  unfold State.deviceTick; split
  · rfl
  · simp

@[simp] theorem State.keyboardEvent_halted (s : State) : s.keyboardEvent.halted = s.halted := by
  unfold State.keyboardEvent; repeat' split
  all_goals rfl
@[simp] theorem State.displayEvent_halted (s : State) : s.displayEvent.halted = s.halted := by
  unfold State.displayEvent; split <;> rfl
@[simp] theorem State.deviceTick_halted (s : State) : s.deviceTick.halted = s.halted := by
  unfold State.deviceTick; split
  · rfl
  · simp

@[simp] theorem State.keyboardEvent_ddr (s : State) : s.keyboardEvent.ddr = s.ddr := by
  unfold State.keyboardEvent; repeat' split
  all_goals rfl
@[simp] theorem State.displayEvent_ddr (s : State) : s.displayEvent.ddr = s.ddr := by
  unfold State.displayEvent; split <;> rfl
@[simp] theorem State.deviceTick_ddr (s : State) : s.deviceTick.ddr = s.ddr := by
  unfold State.deviceTick; split
  · rfl
  · simp

@[simp] theorem State.keyboardEvent_mcr (s : State) : s.keyboardEvent.mcr = s.mcr := by
  unfold State.keyboardEvent; repeat' split
  all_goals rfl
@[simp] theorem State.displayEvent_mcr (s : State) : s.displayEvent.mcr = s.mcr := by
  unfold State.displayEvent; split <;> rfl
@[simp] theorem State.deviceTick_mcr (s : State) : s.deviceTick.mcr = s.mcr := by
  unfold State.deviceTick; split
  · rfl
  · simp

@[simp] theorem State.keyboardEvent_platform (s : State) : s.keyboardEvent.platform = s.platform := by
  unfold State.keyboardEvent; repeat' split
  all_goals rfl
@[simp] theorem State.displayEvent_platform (s : State) : s.displayEvent.platform = s.platform := by
  unfold State.displayEvent; split <;> rfl
@[simp] theorem State.deviceTick_platform (s : State) : s.deviceTick.platform = s.platform := by
  unfold State.deviceTick; split
  · rfl
  · simp

/-! ### The fields an access of a device register keeps -/

@[simp] theorem State.deviceReadEffect_regs (s : State) (d : DeviceReg) : (s.deviceReadEffect d).regs = s.regs := by
  cases d <;> rfl
@[simp] theorem State.deviceReadEffect_pc (s : State) (d : DeviceReg) : (s.deviceReadEffect d).pc = s.pc := by
  cases d <;> rfl
@[simp] theorem State.deviceReadEffect_psr (s : State) (d : DeviceReg) : (s.deviceReadEffect d).psr = s.psr := by
  cases d <;> rfl
@[simp] theorem State.deviceReadEffect_savedSsp (s : State) (d : DeviceReg) : (s.deviceReadEffect d).savedSsp = s.savedSsp := by
  cases d <;> rfl
@[simp] theorem State.deviceReadEffect_savedUsp (s : State) (d : DeviceReg) : (s.deviceReadEffect d).savedUsp = s.savedUsp := by
  cases d <;> rfl
@[simp] theorem State.deviceReadEffect_ir (s : State) (d : DeviceReg) : (s.deviceReadEffect d).ir = s.ir := by
  cases d <;> rfl
@[simp] theorem State.deviceReadEffect_mar (s : State) (d : DeviceReg) : (s.deviceReadEffect d).mar = s.mar := by
  cases d <;> rfl
@[simp] theorem State.deviceReadEffect_mdr (s : State) (d : DeviceReg) : (s.deviceReadEffect d).mdr = s.mdr := by
  cases d <;> rfl
@[simp] theorem State.deviceReadEffect_mem (s : State) (d : DeviceReg) : (s.deviceReadEffect d).mem = s.mem := by
  cases d <;> rfl
@[simp] theorem State.deviceReadEffect_input (s : State) (d : DeviceReg) : (s.deviceReadEffect d).input = s.input := by
  cases d <;> rfl
@[simp] theorem State.deviceReadEffect_output (s : State) (d : DeviceReg) : (s.deviceReadEffect d).output = s.output := by
  cases d <;> rfl
@[simp] theorem State.deviceReadEffect_halted (s : State) (d : DeviceReg) : (s.deviceReadEffect d).halted = s.halted := by
  cases d <;> rfl
@[simp] theorem State.deviceReadEffect_kbdr (s : State) (d : DeviceReg) : (s.deviceReadEffect d).kbdr = s.kbdr := by
  cases d <;> rfl
@[simp] theorem State.deviceReadEffect_dsr (s : State) (d : DeviceReg) : (s.deviceReadEffect d).dsr = s.dsr := by
  cases d <;> rfl
@[simp] theorem State.deviceReadEffect_ddr (s : State) (d : DeviceReg) : (s.deviceReadEffect d).ddr = s.ddr := by
  cases d <;> rfl
@[simp] theorem State.deviceReadEffect_mcr (s : State) (d : DeviceReg) : (s.deviceReadEffect d).mcr = s.mcr := by
  cases d <;> rfl
@[simp] theorem State.deviceReadEffect_platform (s : State) (d : DeviceReg) : (s.deviceReadEffect d).platform = s.platform := by
  cases d <;> rfl
@[simp] theorem State.deviceReadEffect_freeIndex (s : State) (d : DeviceReg) : (s.deviceReadEffect d).freeIndex = s.freeIndex := by
  cases d <;> rfl
@[simp] theorem State.deviceWrite_regs (s : State) (v : Word) (d : DeviceReg) : (s.deviceWrite v d).regs = s.regs := by
  cases d <;> rfl
@[simp] theorem State.deviceWrite_pc (s : State) (v : Word) (d : DeviceReg) : (s.deviceWrite v d).pc = s.pc := by
  cases d <;> rfl
@[simp] theorem State.deviceWrite_psr (s : State) (v : Word) (d : DeviceReg) : (s.deviceWrite v d).psr = s.psr := by
  cases d <;> rfl
@[simp] theorem State.deviceWrite_savedSsp (s : State) (v : Word) (d : DeviceReg) : (s.deviceWrite v d).savedSsp = s.savedSsp := by
  cases d <;> rfl
@[simp] theorem State.deviceWrite_savedUsp (s : State) (v : Word) (d : DeviceReg) : (s.deviceWrite v d).savedUsp = s.savedUsp := by
  cases d <;> rfl
@[simp] theorem State.deviceWrite_ir (s : State) (v : Word) (d : DeviceReg) : (s.deviceWrite v d).ir = s.ir := by
  cases d <;> rfl
@[simp] theorem State.deviceWrite_mar (s : State) (v : Word) (d : DeviceReg) : (s.deviceWrite v d).mar = s.mar := by
  cases d <;> rfl
@[simp] theorem State.deviceWrite_mdr (s : State) (v : Word) (d : DeviceReg) : (s.deviceWrite v d).mdr = s.mdr := by
  cases d <;> rfl
@[simp] theorem State.deviceWrite_mem (s : State) (v : Word) (d : DeviceReg) : (s.deviceWrite v d).mem = s.mem := by
  cases d <;> rfl
@[simp] theorem State.deviceWrite_input (s : State) (v : Word) (d : DeviceReg) : (s.deviceWrite v d).input = s.input := by
  cases d <;> rfl
@[simp] theorem State.deviceWrite_halted (s : State) (v : Word) (d : DeviceReg) : (s.deviceWrite v d).halted = s.halted := by
  cases d <;> rfl
@[simp] theorem State.deviceWrite_kbdr (s : State) (v : Word) (d : DeviceReg) : (s.deviceWrite v d).kbdr = s.kbdr := by
  cases d <;> rfl
@[simp] theorem State.deviceWrite_platform (s : State) (v : Word) (d : DeviceReg) : (s.deviceWrite v d).platform = s.platform := by
  cases d <;> rfl
@[simp] theorem State.deviceWrite_freeIndex (s : State) (v : Word) (d : DeviceReg) : (s.deviceWrite v d).freeIndex = s.freeIndex := by
  cases d <;> rfl

/-! ### MemRead -/

@[simp] theorem State.afterRead_regs (s : State) (a : Word) : (s.afterRead a).regs = s.regs := by
  unfold State.afterRead; split <;> simp
@[simp] theorem State.afterRead_pc (s : State) (a : Word) : (s.afterRead a).pc = s.pc := by
  unfold State.afterRead; split <;> simp
@[simp] theorem State.afterRead_psr (s : State) (a : Word) : (s.afterRead a).psr = s.psr := by
  unfold State.afterRead; split <;> simp
@[simp] theorem State.afterRead_savedSsp (s : State) (a : Word) : (s.afterRead a).savedSsp = s.savedSsp := by
  unfold State.afterRead; split <;> simp
@[simp] theorem State.afterRead_savedUsp (s : State) (a : Word) : (s.afterRead a).savedUsp = s.savedUsp := by
  unfold State.afterRead; split <;> simp
@[simp] theorem State.afterRead_ir (s : State) (a : Word) : (s.afterRead a).ir = s.ir := by
  unfold State.afterRead; split <;> simp
@[simp] theorem State.afterRead_mem (s : State) (a : Word) : (s.afterRead a).mem = s.mem := by
  unfold State.afterRead; split <;> simp
@[simp] theorem State.afterRead_output (s : State) (a : Word) : (s.afterRead a).output = s.output := by
  unfold State.afterRead; split <;> simp
@[simp] theorem State.afterRead_halted (s : State) (a : Word) : (s.afterRead a).halted = s.halted := by
  unfold State.afterRead; split <;> simp
@[simp] theorem State.afterRead_ddr (s : State) (a : Word) : (s.afterRead a).ddr = s.ddr := by
  unfold State.afterRead; split <;> simp
@[simp] theorem State.afterRead_mcr (s : State) (a : Word) : (s.afterRead a).mcr = s.mcr := by
  unfold State.afterRead; split <;> simp
@[simp] theorem State.afterRead_platform (s : State) (a : Word) : (s.afterRead a).platform = s.platform := by
  unfold State.afterRead; split <;> simp

@[simp] theorem State.afterRead_mar (s : State) (a : Word) : (s.afterRead a).mar = a := by
  unfold State.afterRead; split <;> rfl

@[simp] theorem State.afterRead_mdr (s : State) (a : Word) : (s.afterRead a).mdr = s.readWord a := by
  unfold State.afterRead; split <;> rfl

@[simp] theorem State.afterRead_reg (s : State) (a : Word) (r : Reg) : (s.afterRead a).reg r = s.reg r :=
  State.reg_of_regs (s.afterRead_regs a) r

@[simp] theorem State.afterRead_peek (s : State) (a b : Word) : (s.afterRead a).peek b = s.peek b :=
  State.peek_of_mem (s.afterRead_mem a) b

/-- A read of plain memory answers the location. -/
theorem State.readWord_plain {s : State} {a : Word} (h : deviceAt s.platform.deviceMap a = none) :
    s.readWord a = s.peek a := by
  simp only [State.readWord, h]

theorem State.readWord_of_empty {s : State} (h : s.platform.deviceMap = .empty) (a : Word) :
    s.readWord a = s.peek a :=
  State.readWord_plain (by rw [h]; rfl)

/-- With no device attached a read changes MAR and MDR alone. -/
theorem State.afterRead_of_empty {s : State} (h : s.platform.deviceMap = .empty) (a : Word) :
    s.afterRead a = { s with mar := a, mdr := s.peek a } := by
  simp only [State.afterRead, h, deviceAt_empty, State.deviceTick_of_empty h, State.readWord_of_empty h]

/-! ### MemWrite -/

@[simp] theorem State.writeWord_regs (s : State) (a v : Word) : (s.writeWord a v).regs = s.regs := by
  unfold State.writeWord; split <;> simp
@[simp] theorem State.writeWord_pc (s : State) (a v : Word) : (s.writeWord a v).pc = s.pc := by
  unfold State.writeWord; split <;> simp
@[simp] theorem State.writeWord_psr (s : State) (a v : Word) : (s.writeWord a v).psr = s.psr := by
  unfold State.writeWord; split <;> simp
@[simp] theorem State.writeWord_savedSsp (s : State) (a v : Word) : (s.writeWord a v).savedSsp = s.savedSsp := by
  unfold State.writeWord; split <;> simp
@[simp] theorem State.writeWord_savedUsp (s : State) (a v : Word) : (s.writeWord a v).savedUsp = s.savedUsp := by
  unfold State.writeWord; split <;> simp
@[simp] theorem State.writeWord_ir (s : State) (a v : Word) : (s.writeWord a v).ir = s.ir := by
  unfold State.writeWord; split <;> simp
@[simp] theorem State.writeWord_halted (s : State) (a v : Word) : (s.writeWord a v).halted = s.halted := by
  unfold State.writeWord; split <;> simp
@[simp] theorem State.writeWord_platform (s : State) (a v : Word) : (s.writeWord a v).platform = s.platform := by
  unfold State.writeWord; split <;> simp

@[simp] theorem State.writeWord_reg (s : State) (a v : Word) (r : Reg) : (s.writeWord a v).reg r = s.reg r :=
  State.reg_of_regs (s.writeWord_regs a v) r

/-- The memory after a write: plain memory takes the word, a device register's write leaves the memory alone. -/
theorem State.writeWord_mem (s : State) (a v : Word) :
    (s.writeWord a v).mem =
      if deviceAt s.platform.deviceMap a = none then Memory.insert s.mem a.toNat v else s.mem := by
  unfold State.writeWord; split <;> simp [*]

/-- A location after a write. -/
theorem State.writeWord_peek (s : State) (a v b : Word) :
    (s.writeWord a v).peek b =
      if deviceAt s.platform.deviceMap a = none ∧ b = a then v else s.peek b := by
  by_cases h : deviceAt s.platform.deviceMap a = none
  · have := State.peek_of_mem (s := s.poke a v) (t := s.writeWord a v) (by simp [State.writeWord_mem, h]) b
    simp [this, h]
  · have := State.peek_of_mem (s := s) (t := s.writeWord a v) (by simp [State.writeWord_mem, h]) b
    simp [this, h]

/-- With no device attached a write changes the location, MAR and MDR alone. -/
theorem State.writeWord_of_empty {s : State} (h : s.platform.deviceMap = .empty) (a v : Word) :
    s.writeWord a v = { s.poke a v with mar := a, mdr := v } := by
  simp only [State.writeWord, h, deviceAt_empty, State.deviceTick_of_empty h]

theorem State.writeWord_wf {s : State} (h : Memory.wf s.mem) (a v : Word) : Memory.wf (s.writeWord a v).mem := by
  rw [State.writeWord_mem]
  split
  · exact State.poke_wf h a v
  · exact h

/-! ### Accesses do not look at the processor's own registers -/

/-- The state with the processor's own registers replaced. -/
def State.withCpu (s : State) (regs : Regs) (pc psr savedSsp savedUsp : Word) : State :=
  { s with regs := regs, pc := pc, psr := psr, savedSsp := savedSsp, savedUsp := savedUsp }

theorem State.deviceTick_withCpu (s : State) (g : Regs) (pc psr ssp usp : Word) :
    (s.withCpu g pc psr ssp usp).deviceTick = s.deviceTick.withCpu g pc psr ssp usp := by
  have hk : (s.withCpu g pc psr ssp usp).keyboardEvent = s.keyboardEvent.withCpu g pc psr ssp usp := by
    cases hi : s.input with
    | nil => simp [State.keyboardEvent, State.withCpu, hi]
    | cons c rest =>
      by_cases h : (!s.kbsr.getLsbD 15 && Config.keyboardDelivers s.freeIndex) = true <;>
        simp only [State.keyboardEvent, State.withCpu, hi, h] <;> simp [hi]
  have hd (t : State) : (t.withCpu g pc psr ssp usp).displayEvent = t.displayEvent.withCpu g pc psr ssp usp := by
    by_cases h : (!t.dsr.getLsbD 15 && Config.displayRecovers t.freeIndex) = true <;>
      simp only [State.displayEvent, State.withCpu, h] <;> rfl
  cases hm : s.platform.deviceMap with
  | empty => simp [State.deviceTick, State.withCpu, hm]
  | customary =>
    have h1 : (s.withCpu g pc psr ssp usp).platform.deviceMap = .customary := hm
    simp only [State.deviceTick, hm, h1, hk, hd]
    rfl

theorem State.readWord_withCpu (s : State) (g : Regs) (pc psr ssp usp a : Word) :
    (s.withCpu g pc psr ssp usp).readWord a = s.readWord a := by
  have h1 : (s.withCpu g pc psr ssp usp).platform = s.platform := rfl
  simp only [State.readWord, h1, State.deviceTick_withCpu]
  split
  · rename_i d _; cases d <;> rfl
  · rfl

theorem State.afterRead_withCpu (s : State) (g : Regs) (pc psr ssp usp a : Word) :
    (s.withCpu g pc psr ssp usp).afterRead a = (s.afterRead a).withCpu g pc psr ssp usp := by
  have h1 : (s.withCpu g pc psr ssp usp).platform = s.platform := rfl
  simp only [State.afterRead, h1, State.deviceTick_withCpu, State.readWord_withCpu]
  split
  · rename_i d _; cases d <;> rfl
  · rfl

theorem State.writeWord_withCpu (s : State) (g : Regs) (pc psr ssp usp a v : Word) :
    (s.withCpu g pc psr ssp usp).writeWord a v = (s.writeWord a v).withCpu g pc psr ssp usp := by
  have h1 : (s.withCpu g pc psr ssp usp).platform = s.platform := rfl
  simp only [State.writeWord, h1, State.deviceTick_withCpu]
  split
  · rename_i d _; cases d <;> rfl
  · rfl

@[simp] theorem State.setReg_readWord (s : State) (r : Reg) (v a : Word) :
    (s.setReg r v).readWord a = s.readWord a :=
  s.readWord_withCpu (s.regs.set r v) s.pc s.psr s.savedSsp s.savedUsp a

/-! ### The keyboard data register keeps bits 15:8 zero -/

theorem State.deviceTick_kbdr {s : State} (h : s.kbdr.extractLsb' 8 8 = 0) :
    s.deviceTick.kbdr.extractLsb' 8 8 = 0 := by
  have hk : s.keyboardEvent.kbdr.extractLsb' 8 8 = 0 := by
    unfold State.keyboardEvent
    split
    · exact h
    · rename_i c _ _
      split
      · apply BitVec.eq_of_getLsbD_eq
        intro i hi
        simp
      · exact h
  have hd : s.keyboardEvent.displayEvent.kbdr = s.keyboardEvent.kbdr := by
    unfold State.displayEvent; split <;> rfl
  unfold State.deviceTick
  split
  · exact h
  · simpa only [hd] using hk

theorem State.Inv.afterRead {s : State} (h : s.Inv) (a : Word) : (s.afterRead a).Inv := by
  refine ⟨by simpa using h.1, ?_⟩
  unfold State.afterRead
  split
  · simpa using State.deviceTick_kbdr h.2
  · exact State.deviceTick_kbdr h.2

theorem State.Inv.writeWord {s : State} (h : s.Inv) (a v : Word) : (s.writeWord a v).Inv := by
  refine ⟨State.writeWord_wf h.1 a v, ?_⟩
  unfold State.writeWord
  split
  · simpa using State.deviceTick_kbdr h.2
  · simpa using State.deviceTick_kbdr h.2

/-- The invariant is a fact about the memory and the keyboard data register. -/
theorem State.Inv.of_eq {s t : State} (h : s.Inv) (hm : t.mem = s.mem) (hk : t.kbdr = s.kbdr) : t.Inv :=
  ⟨hm ▸ h.1, hk ▸ h.2⟩

theorem State.Inv.reset : State.reset.Inv := ⟨Memory.wf_reset, rfl⟩

end Sys2Proof.Machine
end

