-- ==== Sys2Proof/Laws/Decode.lean ====
section
/-! SUPPORT. What the fixed bits of an encoding say of the fields the decoder looks at. -/

namespace Sys2Proof.Machine

/-- A bit under the mask is the bit of the pattern. -/
theorem bit_of_masked {w mask bits : Word} (h : w &&& mask = bits) {i : Nat} (hm : mask.getLsbD i = true) :
    w.getLsbD i = bits.getLsbD i := by
  rw [← h, BitVec.getLsbD_and, hm, Bool.and_true]

/-- A field that lies under the mask is the field of the pattern. -/
theorem field_of_masked {w mask bits : Word} (h : w &&& mask = bits) {lo width : Nat}
    (hm : mask.extractLsb' lo width = BitVec.allOnes width) :
    w.extractLsb' lo width = bits.extractLsb' lo width := by
  rw [← h, BitVec.extractLsb'_and, hm, BitVec.and_allOnes]

/-- The opcode of a word, when the mask covers it (30_encoding.md R90). -/
theorem opcode_of_masked {w mask bits : Word} (h : w &&& mask = bits) (hm : mask.extractLsb' 12 4 = BitVec.allOnes 4) :
    opcodeField w = opcodeField bits :=
  field_of_masked h hm

end Sys2Proof.Machine
end

