-- ==== Sys2Proof/Laws/Operands.lean ====
section
/-! SUPPORT. Immediates, offsets and table addresses in terms of integers. -/

namespace Sys2Proof.Machine

theorem signExtend_ofInt {w : Nat} (hw : 0 < w) {v : Int} (h : fitsSigned w v) :
    (BitVec.ofInt w v).signExtend 16 = BitVec.ofInt 16 v := by
  rw [BitVec.signExtend, BitVec.toInt_ofInt, Int.bmod_eq_of_le]
  all_goals obtain ⟨k, rfl⟩ := Nat.exists_eq_add_of_lt hw
  all_goals simp only [fitsSigned, zero_add, Nat.add_sub_cancel] at h
  all_goals push_cast [zero_add, pow_succ]
  all_goals omega

/-- An immediate that fits its field is the integer it was written as. -/
theorem sext5_eq {v : Int} (h : fitsSigned 5 v) : sext5 v = BitVec.ofInt 16 v := signExtend_ofInt (by decide) h

theorem sext6_eq {v : Int} (h : fitsSigned 6 v) : sext6 v = BitVec.ofInt 16 v := signExtend_ofInt (by decide) h

theorem sext9_eq {v : Int} (h : fitsSigned 9 v) : sext9 v = BitVec.ofInt 16 v := signExtend_ofInt (by decide) h

theorem sext11_eq {v : Int} (h : fitsSigned 11 v) : sext11 v = BitVec.ofInt 16 v := signExtend_ofInt (by decide) h

/-- The trap table address is the sign-extended vector. -/
theorem trapTableAddress_eq (vector : Nat) :
    trapTableAddress vector = (BitVec.ofNat 8 vector).signExtend 16 := rfl

/-- The register a field names and the field's number agree. -/
@[simp] theorem reg_ofBits_toBits (r : Reg) : Reg.ofBits r.toBits = r := by cases r <;> rfl

@[simp] theorem reg_toBits_ofBits (b : BitVec 3) : (Reg.ofBits b).toBits = b := by
  revert b; decide

end Sys2Proof.Machine
end

