-- ==== Sys2Proof/Laws/Ops.lean ====
section
/-! SUPPORT. What each shared operation can do: fetch, results and loads, the stack, the entry sequence, the return
from an interrupt, traps and host services. -/

namespace Sys2Proof.Machine

/-! ### Fetch -/

@[simp] theorem State.afterFetch_regs (s : State) : s.afterFetch.regs = s.regs := by simp [State.afterFetch]
@[simp] theorem State.afterFetch_psr (s : State) : s.afterFetch.psr = s.psr := by simp [State.afterFetch]
@[simp] theorem State.afterFetch_savedSsp (s : State) : s.afterFetch.savedSsp = s.savedSsp := by simp [State.afterFetch]
@[simp] theorem State.afterFetch_savedUsp (s : State) : s.afterFetch.savedUsp = s.savedUsp := by simp [State.afterFetch]
@[simp] theorem State.afterFetch_mem (s : State) : s.afterFetch.mem = s.mem := by simp [State.afterFetch]
@[simp] theorem State.afterFetch_output (s : State) : s.afterFetch.output = s.output := by simp [State.afterFetch]
@[simp] theorem State.afterFetch_halted (s : State) : s.afterFetch.halted = s.halted := by simp [State.afterFetch]
@[simp] theorem State.afterFetch_ddr (s : State) : s.afterFetch.ddr = s.ddr := by simp [State.afterFetch]
@[simp] theorem State.afterFetch_mcr (s : State) : s.afterFetch.mcr = s.mcr := by simp [State.afterFetch]
@[simp] theorem State.afterFetch_platform (s : State) : s.afterFetch.platform = s.platform := by simp [State.afterFetch]

@[simp] theorem State.afterFetch_pc (s : State) : s.afterFetch.pc = s.pc + 1 := rfl

@[simp] theorem State.afterFetch_ir (s : State) : s.afterFetch.ir = s.readWord s.pc := rfl

@[simp] theorem State.afterFetch_mar (s : State) : s.afterFetch.mar = s.pc := by simp [State.afterFetch]

@[simp] theorem State.afterFetch_mdr (s : State) : s.afterFetch.mdr = s.readWord s.pc := by simp [State.afterFetch]

@[simp] theorem State.afterFetch_reg (s : State) (r : Reg) : s.afterFetch.reg r = s.reg r :=
  State.reg_of_regs s.afterFetch_regs r

@[simp] theorem State.afterFetch_peek (s : State) (b : Word) : s.afterFetch.peek b = s.peek b :=
  State.peek_of_mem s.afterFetch_mem b

@[simp] theorem State.afterFetch_userMode (s : State) : s.afterFetch.userMode = s.userMode := by
  simp [State.userMode]

theorem State.Inv.afterFetch {s : State} (h : s.Inv) : s.afterFetch.Inv :=
  (h.afterRead s.pc).of_eq rfl rfl

/-! ### Results and loads -/

@[simp] theorem State.writeResult_pc (s : State) (dr : Reg) (v : Word) : (s.writeResult dr v).pc = s.pc := rfl
@[simp] theorem State.writeResult_savedSsp (s : State) (dr : Reg) (v : Word) : (s.writeResult dr v).savedSsp = s.savedSsp := rfl
@[simp] theorem State.writeResult_savedUsp (s : State) (dr : Reg) (v : Word) : (s.writeResult dr v).savedUsp = s.savedUsp := rfl
@[simp] theorem State.writeResult_ir (s : State) (dr : Reg) (v : Word) : (s.writeResult dr v).ir = s.ir := rfl
@[simp] theorem State.writeResult_mar (s : State) (dr : Reg) (v : Word) : (s.writeResult dr v).mar = s.mar := rfl
@[simp] theorem State.writeResult_mdr (s : State) (dr : Reg) (v : Word) : (s.writeResult dr v).mdr = s.mdr := rfl
@[simp] theorem State.writeResult_mem (s : State) (dr : Reg) (v : Word) : (s.writeResult dr v).mem = s.mem := rfl
@[simp] theorem State.writeResult_input (s : State) (dr : Reg) (v : Word) : (s.writeResult dr v).input = s.input := rfl
@[simp] theorem State.writeResult_output (s : State) (dr : Reg) (v : Word) : (s.writeResult dr v).output = s.output := rfl
@[simp] theorem State.writeResult_halted (s : State) (dr : Reg) (v : Word) : (s.writeResult dr v).halted = s.halted := rfl
@[simp] theorem State.writeResult_kbsr (s : State) (dr : Reg) (v : Word) : (s.writeResult dr v).kbsr = s.kbsr := rfl
@[simp] theorem State.writeResult_kbdr (s : State) (dr : Reg) (v : Word) : (s.writeResult dr v).kbdr = s.kbdr := rfl
@[simp] theorem State.writeResult_dsr (s : State) (dr : Reg) (v : Word) : (s.writeResult dr v).dsr = s.dsr := rfl
@[simp] theorem State.writeResult_ddr (s : State) (dr : Reg) (v : Word) : (s.writeResult dr v).ddr = s.ddr := rfl
@[simp] theorem State.writeResult_mcr (s : State) (dr : Reg) (v : Word) : (s.writeResult dr v).mcr = s.mcr := rfl
@[simp] theorem State.writeResult_platform (s : State) (dr : Reg) (v : Word) : (s.writeResult dr v).platform = s.platform := rfl
@[simp] theorem State.writeResult_freeIndex (s : State) (dr : Reg) (v : Word) : (s.writeResult dr v).freeIndex = s.freeIndex := rfl

@[simp] theorem State.writeResult_reg (s : State) (dr q : Reg) (v : Word) :
    (s.writeResult dr v).reg q = if q = dr then v else s.reg q :=
  s.setReg_reg dr q v

@[simp] theorem State.writeResult_userMode (s : State) (dr : Reg) (v : Word) :
    (s.writeResult dr v).userMode = s.userMode :=
  (s.setReg dr v).setCC_userMode v

/-- A result: DR holds it, the codes say its sign, and no other register, PSR bit or field changes. -/
theorem State.writeResult_spec (s : State) (dr : Reg) (v : Word) :
    s.onlyRegWritten (s.writeResult dr v) dr v ∧ (s.writeResult dr v).codesSay v ∧
      s.samePsrAboveCodes (s.writeResult dr v) ∧
      s.writeResult dr v = { s with regs := (s.writeResult dr v).regs, psr := (s.writeResult dr v).psr } :=
  ⟨fun q => s.writeResult_reg dr q v, (s.setReg dr v).setCC_codesSay v, (s.setReg dr v).setCC_samePsrAboveCodes v, rfl⟩

theorem State.Inv.writeResult {s : State} (h : s.Inv) (dr : Reg) (v : Word) : (s.writeResult dr v).Inv :=
  h.of_eq rfl rfl

theorem State.Inv.load {s : State} (h : s.Inv) (dr : Reg) (ea : Word) : (s.load dr ea).Inv :=
  (h.afterRead ea).writeResult dr _

/-! ### The stack -/

@[simp] theorem State.push_pc (s : State) (v : Word) : (s.push v).pc = s.pc := by simp [State.push]
@[simp] theorem State.push_psr (s : State) (v : Word) : (s.push v).psr = s.psr := by simp [State.push]
@[simp] theorem State.push_savedSsp (s : State) (v : Word) : (s.push v).savedSsp = s.savedSsp := by simp [State.push]
@[simp] theorem State.push_savedUsp (s : State) (v : Word) : (s.push v).savedUsp = s.savedUsp := by simp [State.push]
@[simp] theorem State.push_ir (s : State) (v : Word) : (s.push v).ir = s.ir := by simp [State.push]
@[simp] theorem State.push_halted (s : State) (v : Word) : (s.push v).halted = s.halted := by simp [State.push]
@[simp] theorem State.push_platform (s : State) (v : Word) : (s.push v).platform = s.platform := by simp [State.push]
@[simp] theorem State.afterPop_pc (s : State) : s.afterPop.pc = s.pc := by simp [State.afterPop]
@[simp] theorem State.afterPop_psr (s : State) : s.afterPop.psr = s.psr := by simp [State.afterPop]
@[simp] theorem State.afterPop_savedSsp (s : State) : s.afterPop.savedSsp = s.savedSsp := by simp [State.afterPop]
@[simp] theorem State.afterPop_savedUsp (s : State) : s.afterPop.savedUsp = s.savedUsp := by simp [State.afterPop]
@[simp] theorem State.afterPop_ir (s : State) : s.afterPop.ir = s.ir := by simp [State.afterPop]
@[simp] theorem State.afterPop_mem (s : State) : s.afterPop.mem = s.mem := by simp [State.afterPop]
@[simp] theorem State.afterPop_output (s : State) : s.afterPop.output = s.output := by simp [State.afterPop]
@[simp] theorem State.afterPop_halted (s : State) : s.afterPop.halted = s.halted := by simp [State.afterPop]
@[simp] theorem State.afterPop_ddr (s : State) : s.afterPop.ddr = s.ddr := by simp [State.afterPop]
@[simp] theorem State.afterPop_mcr (s : State) : s.afterPop.mcr = s.mcr := by simp [State.afterPop]
@[simp] theorem State.afterPop_platform (s : State) : s.afterPop.platform = s.platform := by simp [State.afterPop]

/-- A push is the memory write at the lowered R6, with R6 lowered. -/
theorem State.push_eq_writeWord (s : State) (v : Word) :
    s.push v = (s.writeWord (s.reg .r6 - 1) v).withCpu (s.regs.set .r6 (s.reg .r6 - 1)) s.pc s.psr s.savedSsp
      s.savedUsp :=
  s.writeWord_withCpu ..

/-- The state after a pop is the one after the read at R6, with R6 raised. -/
theorem State.afterPop_eq_afterRead (s : State) :
    s.afterPop = (s.afterRead (s.reg .r6)).withCpu (s.regs.set .r6 (s.reg .r6 + 1)) s.pc s.psr s.savedSsp
      s.savedUsp := by
  simp [State.afterPop, State.setReg, State.withCpu]

@[simp] theorem State.push_reg (s : State) (v : Word) (q : Reg) :
    (s.push v).reg q = if q = .r6 then s.reg .r6 - 1 else s.reg q := by
  simp [State.push]

/-- A push of plain memory writes the location below the old top. -/
theorem State.push_peek (s : State) (v b : Word) :
    (s.push v).peek b =
      if deviceAt s.platform.deviceMap (s.reg .r6 - 1) = none ∧ b = s.reg .r6 - 1 then v else s.peek b :=
  (s.setReg .r6 (s.reg .r6 - 1)).writeWord_peek (s.reg .r6 - 1) v b

@[simp] theorem State.afterPop_reg (s : State) (q : Reg) :
    s.afterPop.reg q = if q = .r6 then s.reg .r6 + 1 else s.reg q := by
  simp [State.afterPop]

@[simp] theorem State.afterPop_peek (s : State) (b : Word) : s.afterPop.peek b = s.peek b :=
  State.peek_of_mem s.afterPop_mem b

theorem State.popValue_of_empty {s : State} (h : s.platform.deviceMap = .empty) :
    s.popValue = s.peek (s.reg .r6) :=
  State.readWord_of_empty h _

theorem State.Inv.push {s : State} (h : s.Inv) (v : Word) : (s.push v).Inv :=
  (h.of_eq (t := s.setReg .r6 (s.reg .r6 - 1)) rfl rfl).writeWord _ v

theorem State.Inv.afterPop {s : State} (h : s.Inv) : s.afterPop.Inv :=
  (h.afterRead (s.reg .r6)).of_eq rfl rfl

/-! ### The entry sequence -/

theorem State.entryStack_cases (s : State) (fromUser : Bool) :
    (fromUser = true ∧ s.entryStack fromUser = s.switchToSupervisorStack) ∨
      (fromUser = false ∧ s.entryStack fromUser = s) := by
  cases fromUser
  · exact .inr ⟨rfl, by simp [State.entryStack]⟩
  · exact .inl ⟨rfl, by simp [State.entryStack, Config.stackSwitch]⟩

@[simp] theorem State.entryStack_pc (s : State) (u : Bool) : (s.entryStack u).pc = s.pc := by unfold State.entryStack; split <;> rfl
@[simp] theorem State.entryStack_psr (s : State) (u : Bool) : (s.entryStack u).psr = s.psr := by unfold State.entryStack; split <;> rfl
@[simp] theorem State.entryStack_savedSsp (s : State) (u : Bool) : (s.entryStack u).savedSsp = s.savedSsp := by unfold State.entryStack; split <;> rfl
@[simp] theorem State.entryStack_ir (s : State) (u : Bool) : (s.entryStack u).ir = s.ir := by unfold State.entryStack; split <;> rfl
@[simp] theorem State.entryStack_mem (s : State) (u : Bool) : (s.entryStack u).mem = s.mem := by unfold State.entryStack; split <;> rfl
@[simp] theorem State.entryStack_input (s : State) (u : Bool) : (s.entryStack u).input = s.input := by unfold State.entryStack; split <;> rfl
@[simp] theorem State.entryStack_output (s : State) (u : Bool) : (s.entryStack u).output = s.output := by unfold State.entryStack; split <;> rfl
@[simp] theorem State.entryStack_halted (s : State) (u : Bool) : (s.entryStack u).halted = s.halted := by unfold State.entryStack; split <;> rfl
@[simp] theorem State.entryStack_kbsr (s : State) (u : Bool) : (s.entryStack u).kbsr = s.kbsr := by unfold State.entryStack; split <;> rfl
@[simp] theorem State.entryStack_kbdr (s : State) (u : Bool) : (s.entryStack u).kbdr = s.kbdr := by unfold State.entryStack; split <;> rfl
@[simp] theorem State.entryStack_dsr (s : State) (u : Bool) : (s.entryStack u).dsr = s.dsr := by unfold State.entryStack; split <;> rfl
@[simp] theorem State.entryStack_ddr (s : State) (u : Bool) : (s.entryStack u).ddr = s.ddr := by unfold State.entryStack; split <;> rfl
@[simp] theorem State.entryStack_mcr (s : State) (u : Bool) : (s.entryStack u).mcr = s.mcr := by unfold State.entryStack; split <;> rfl
@[simp] theorem State.entryStack_platform (s : State) (u : Bool) : (s.entryStack u).platform = s.platform := by unfold State.entryStack; split <;> rfl
@[simp] theorem State.entryStack_freeIndex (s : State) (u : Bool) : (s.entryStack u).freeIndex = s.freeIndex := by unfold State.entryStack; split <;> rfl

@[simp] theorem State.jumpThrough_regs (s : State) (a : Word) : (s.jumpThrough a).regs = s.regs := by simp [State.jumpThrough]
@[simp] theorem State.jumpThrough_psr (s : State) (a : Word) : (s.jumpThrough a).psr = s.psr := by simp [State.jumpThrough]
@[simp] theorem State.jumpThrough_savedSsp (s : State) (a : Word) : (s.jumpThrough a).savedSsp = s.savedSsp := by simp [State.jumpThrough]
@[simp] theorem State.jumpThrough_savedUsp (s : State) (a : Word) : (s.jumpThrough a).savedUsp = s.savedUsp := by simp [State.jumpThrough]
@[simp] theorem State.jumpThrough_ir (s : State) (a : Word) : (s.jumpThrough a).ir = s.ir := by simp [State.jumpThrough]
@[simp] theorem State.jumpThrough_mem (s : State) (a : Word) : (s.jumpThrough a).mem = s.mem := by simp [State.jumpThrough]
@[simp] theorem State.jumpThrough_output (s : State) (a : Word) : (s.jumpThrough a).output = s.output := by simp [State.jumpThrough]
@[simp] theorem State.jumpThrough_halted (s : State) (a : Word) : (s.jumpThrough a).halted = s.halted := by simp [State.jumpThrough]
@[simp] theorem State.jumpThrough_ddr (s : State) (a : Word) : (s.jumpThrough a).ddr = s.ddr := by simp [State.jumpThrough]
@[simp] theorem State.jumpThrough_mcr (s : State) (a : Word) : (s.jumpThrough a).mcr = s.mcr := by simp [State.jumpThrough]
@[simp] theorem State.jumpThrough_platform (s : State) (a : Word) : (s.jumpThrough a).platform = s.platform := by simp [State.jumpThrough]

@[simp] theorem State.jumpThrough_pc (s : State) (a : Word) : (s.jumpThrough a).pc = s.readWord a := rfl

@[simp] theorem State.jumpThrough_reg (s : State) (a : Word) (r : Reg) : (s.jumpThrough a).reg r = s.reg r :=
  State.reg_of_regs (s.jumpThrough_regs a) r

@[simp] theorem State.jumpThrough_peek (s : State) (a b : Word) : (s.jumpThrough a).peek b = s.peek b :=
  State.peek_of_mem (s.jumpThrough_mem a) b

/-- The entry sequence clears PSR[15] and changes no other bit of the PSR. -/
@[simp] theorem State.enter_psr (s : State) (code : Byte) (savedPc : Word) :
    (s.enter code savedPc).psr = s.psr &&& 0x7FFF := by
  simp [State.enter]

@[simp] theorem State.enter_savedSsp (s : State) (code : Byte) (savedPc : Word) :
    (s.enter code savedPc).savedSsp = s.savedSsp := by
  simp [State.enter]

@[simp] theorem State.enter_ir (s : State) (code : Byte) (savedPc : Word) : (s.enter code savedPc).ir = s.ir := by
  simp [State.enter]

@[simp] theorem State.enter_halted (s : State) (code : Byte) (savedPc : Word) :
    (s.enter code savedPc).halted = s.halted := by
  simp [State.enter]

@[simp] theorem State.enter_platform (s : State) (code : Byte) (savedPc : Word) :
    (s.enter code savedPc).platform = s.platform := by
  simp [State.enter]

/-- An entry from User mode keeps R6 in Saved_USP; one from Supervisor mode leaves it. -/
theorem State.enter_savedUsp (s : State) (code : Byte) (savedPc : Word) :
    (s.enter code savedPc).savedUsp = if s.userMode = true then s.reg .r6 else s.savedUsp := by
  rcases s.enterSupervisor.entryStack_cases s.userMode with ⟨hu, h⟩ | ⟨hu, h⟩ <;> rw [hu] at h <;>
    simp [State.enter, h, hu]

@[simp] theorem State.enter_userMode (s : State) (code : Byte) (savedPc : Word) :
    (s.enter code savedPc).userMode = false := by
  simp [State.userMode]

/-- The general registers after an entry: R6 is two below the stack pointer the entry used, the others stay. -/
theorem State.enter_reg (s : State) (code : Byte) (savedPc : Word) (q : Reg) :
    (s.enter code savedPc).reg q =
      if q = .r6 then (if s.userMode = true then s.savedSsp else s.reg .r6) - 1 - 1 else s.reg q := by
  rcases s.enterSupervisor.entryStack_cases s.userMode with ⟨hu, h⟩ | ⟨hu, h⟩ <;> rw [hu] at h <;>
    by_cases hq : q = .r6 <;> simp [State.enter, h, hu, hq]

theorem State.Inv.entryStack {s : State} (h : s.Inv) (u : Bool) : (s.entryStack u).Inv :=
  h.of_eq (by simp) (by simp)

theorem State.Inv.jumpThrough {s : State} (h : s.Inv) (a : Word) : (s.jumpThrough a).Inv :=
  (h.afterRead a).of_eq rfl rfl

theorem State.Inv.enter {s : State} (h : s.Inv) (code : Byte) (savedPc : Word) : (s.enter code savedPc).Inv :=
  (((((h.of_eq (t := s.enterSupervisor) rfl rfl).entryStack s.userMode).push s.psr).push savedPc).jumpThrough _)

/-- The two values of the saved PC of an exception. -/
theorem State.exceptionPc_cases (s : State) (cause : ExceptionCause) :
    s.exceptionPc cause = s.pc - 1 ∨ s.exceptionPc cause = s.pc := by
  unfold State.exceptionPc
  split
  · exact .inl rfl
  · exact .inr rfl

@[simp] theorem State.takeException_psr (s : State) (cause : ExceptionCause) :
    (s.takeException cause).psr = s.psr &&& 0x7FFF :=
  s.enter_psr _ _

@[simp] theorem State.takeException_userMode (s : State) (cause : ExceptionCause) :
    (s.takeException cause).userMode = false :=
  s.enter_userMode _ _

@[simp] theorem State.takeException_platform (s : State) (cause : ExceptionCause) :
    (s.takeException cause).platform = s.platform :=
  s.enter_platform _ _

theorem State.Inv.takeException {s : State} (h : s.Inv) (cause : ExceptionCause) : (s.takeException cause).Inv :=
  h.enter _ _

/-- Everything a raise can do. -/
theorem State.raiseException_cases (s : State) (cause : ExceptionCause) :
    (s.exceptionReady cause = true ∧ s.raiseException cause = .next (s.takeException cause)) ∨
      (s.exceptionReady cause = false ∧ s.raiseException cause = .fault (.exception cause s)) := by
  cases h : s.exceptionReady cause <;> simp [State.raiseException, h]

/-- The one next state of a raise. -/
theorem State.raiseException_next {s t : State} {cause : ExceptionCause} (h : s.raiseException cause = .next t) :
    s.exceptionReady cause = true ∧ t = s.takeException cause := by
  rcases s.raiseException_cases cause with ⟨hr, e⟩ | ⟨-, e⟩ <;> rw [e] at h <;> cases h
  exact ⟨hr, rfl⟩

/-! ### The return from an interrupt -/

/-- Everything the return can do: two pops into PC and PSR, then the exchange of stack pointers exactly when the
popped PSR is a User-mode one. -/
theorem State.returnFromInterrupt_cases (s : State) :
    let popped := { s.afterPop.afterPop with pc := s.popValue, psr := s.afterPop.popValue }
    (popped.userMode = true ∧ s.returnFromInterrupt = popped.switchToUserStack) ∨
      (popped.userMode = false ∧ s.returnFromInterrupt = popped) := by
  simp only [State.returnFromInterrupt, Config.stackSwitch, true_and]
  split_ifs with h
  · exact .inl ⟨h, rfl⟩
  · exact .inr ⟨by simpa using h, rfl⟩

@[simp] theorem State.returnFromInterrupt_pc (s : State) : s.returnFromInterrupt.pc = s.popValue := by
  rcases s.returnFromInterrupt_cases with ⟨-, h⟩ | ⟨-, h⟩ <;> simp [h]

@[simp] theorem State.returnFromInterrupt_psr (s : State) : s.returnFromInterrupt.psr = s.afterPop.popValue := by
  rcases s.returnFromInterrupt_cases with ⟨-, h⟩ | ⟨-, h⟩ <;> simp [h]

@[simp] theorem State.returnFromInterrupt_mem (s : State) : s.returnFromInterrupt.mem = s.mem := by
  rcases s.returnFromInterrupt_cases with ⟨-, h⟩ | ⟨-, h⟩ <;> simp [h]

@[simp] theorem State.returnFromInterrupt_platform (s : State) :
    s.returnFromInterrupt.platform = s.platform := by
  rcases s.returnFromInterrupt_cases with ⟨-, h⟩ | ⟨-, h⟩ <;> simp [h]

@[simp] theorem State.returnFromInterrupt_halted (s : State) : s.returnFromInterrupt.halted = s.halted := by
  rcases s.returnFromInterrupt_cases with ⟨-, h⟩ | ⟨-, h⟩ <;> simp [h]

@[simp] theorem State.returnFromInterrupt_savedUsp (s : State) :
    s.returnFromInterrupt.savedUsp = s.savedUsp := by
  rcases s.returnFromInterrupt_cases with ⟨-, h⟩ | ⟨-, h⟩ <;> simp [h]

theorem State.Inv.returnFromInterrupt {s : State} (h : s.Inv) : s.returnFromInterrupt.Inv := by
  rcases s.returnFromInterrupt_cases with ⟨-, e⟩ | ⟨-, e⟩ <;> rw [e] <;>
    exact h.afterPop.afterPop.of_eq rfl rfl

/-- Everything RTI can do when it gives a next state. -/
theorem execRti_next {s t : State} (h : execRti s = .next t) :
    (s.userMode = true ∧ t = s.takeException .privilegeModeViolation) ∨
      (s.userMode = false ∧ t = s.returnFromInterrupt) := by
  unfold execRti at h
  cases hu : s.userMode <;> simp only [hu] at h
  · cases h
    exact .inr ⟨rfl, rfl⟩
  · exact .inl ⟨rfl, (State.raiseException_next h).2⟩

/-! ### Traps and host services -/

@[simp] theorem State.afterService_pc (s : State) : s.afterService.pc = s.pc := rfl
@[simp] theorem State.afterService_savedSsp (s : State) : s.afterService.savedSsp = s.savedSsp := rfl
@[simp] theorem State.afterService_savedUsp (s : State) : s.afterService.savedUsp = s.savedUsp := rfl
@[simp] theorem State.afterService_ir (s : State) : s.afterService.ir = s.ir := rfl
@[simp] theorem State.afterService_mar (s : State) : s.afterService.mar = s.mar := rfl
@[simp] theorem State.afterService_mdr (s : State) : s.afterService.mdr = s.mdr := rfl
@[simp] theorem State.afterService_mem (s : State) : s.afterService.mem = s.mem := rfl
@[simp] theorem State.afterService_input (s : State) : s.afterService.input = s.input := rfl
@[simp] theorem State.afterService_output (s : State) : s.afterService.output = s.output := rfl
@[simp] theorem State.afterService_halted (s : State) : s.afterService.halted = s.halted := rfl
@[simp] theorem State.afterService_kbsr (s : State) : s.afterService.kbsr = s.kbsr := rfl
@[simp] theorem State.afterService_kbdr (s : State) : s.afterService.kbdr = s.kbdr := rfl
@[simp] theorem State.afterService_dsr (s : State) : s.afterService.dsr = s.dsr := rfl
@[simp] theorem State.afterService_ddr (s : State) : s.afterService.ddr = s.ddr := rfl
@[simp] theorem State.afterService_mcr (s : State) : s.afterService.mcr = s.mcr := rfl
@[simp] theorem State.afterService_platform (s : State) : s.afterService.platform = s.platform := rfl

@[simp] theorem State.afterService_reg (s : State) (q : Reg) :
    s.afterService.reg q = if q = .r7 then s.pc else s.reg q :=
  s.setReg_reg .r7 q s.pc

/-- A host service leaves exactly one condition code set and no other bit of the PSR changed. -/
theorem State.afterService_psr_spec (s : State) :
    s.afterService.codesOneHot ∧ s.samePsrAboveCodes s.afterService ∧ s.afterService.userMode = s.userMode :=
  ⟨(s.setReg .r7 s.pc).setCode_codesOneHot _, (s.setReg .r7 s.pc).setCode_samePsrAboveCodes _,
    (s.setReg .r7 s.pc).setCode_userMode _⟩

theorem State.Inv.afterService {s : State} (h : s.Inv) : s.afterService.Inv := h.of_eq rfl rfl

theorem State.Inv.trapVectored {s : State} (h : s.Inv) (vector : Nat) : (s.trapVectored vector).Inv :=
  (h.of_eq (t := s.setReg .r7 s.pc) rfl rfl).jumpThrough _

/-- Everything TRAP can do. -/
theorem execTrap_cases (vector : Nat) (s : State) :
    execTrap vector s = .next (s.trapVectored vector) ∨
    (serviceOf vector = some .output ∧ execTrap vector s = .next s.serviceOutput) ∨
    (serviceOf vector = some .input ∧ s.input = [] ∧ execTrap vector s = .fault .waitingForInput) ∨
    (∃ c rest, serviceOf vector = some .input ∧ s.input = c :: rest ∧
      execTrap vector s = .next (s.serviceInput c rest)) ∨
    (serviceOf vector = some .halt ∧ execTrap vector s = .next s.serviceHalt) := by
  unfold execTrap
  split
  · exact .inl rfl
  · split
    · exact .inr (.inl ⟨‹_›, rfl⟩)
    · split
      · exact .inr (.inr (.inl ⟨‹_›, ‹_›, rfl⟩))
      · exact .inr (.inr (.inr (.inl ⟨_, _, ‹_›, ‹_›, rfl⟩)))
    · exact .inr (.inr (.inr (.inr ⟨‹_›, rfl⟩)))
    · exact .inl rfl

end Sys2Proof.Machine
end

