-- ==== Sys2Proof/Laws/PerInstr.lean ====
section
/-! SUPPORT. A family of facts, one lemma per instruction: the encoder puts every instruction into its own row of the
opcode table (30_encoding.md R104, R116). -/

namespace Sys2Proof.Laws.StrictMatch

/-- The strict match and mask of an instruction's row of spec/opcode_table.json. -/
def rowOf : Instr → Word × Word
  | .br _ _ _ _ => (0x0000, 0xF000)
  | .addReg _ _ _ => (0x1000, 0xF038)
  | .addImm _ _ _ => (0x1020, 0xF020)
  | .ld _ _ => (0x2000, 0xF000)
  | .st _ _ => (0x3000, 0xF000)
  | .jsr _ => (0x4800, 0xF800)
  | .jsrr _ => (0x4000, 0xFE3F)
  | .andReg _ _ _ => (0x5000, 0xF038)
  | .andImm _ _ _ => (0x5020, 0xF020)
  | .ldr _ _ _ => (0x6000, 0xF000)
  | .str _ _ _ => (0x7000, 0xF000)
  | .rti => (0x8000, 0xFFFF)
  | .not _ _ => (0x903F, 0xF03F)
  | .ldi _ _ => (0xA000, 0xF000)
  | .sti _ _ => (0xB000, 0xF000)
  | .jmp _ => (0xC000, 0xFE3F)
  | .unusedOpcode _ => (0xD000, 0xF000)
  | .lea _ _ => (0xE000, 0xF000)
  | .trap _ => (0xF000, 0xFF00)

/-- The encoded word has the fixed bits of the instruction's row: the word under the strict mask is the match. -/
def Statement (i : Instr) : Prop := encode i &&& (rowOf i).2 = (rowOf i).1

theorem br (n z p : Bool) (off : Int) : Statement (.br n z p off) := by
  apply BitVec.eq_of_getLsbD_eq
  intro i hi
  interval_cases i <;> simp [encode, rowOf, fieldAt]

theorem addReg (dr sr1 sr2 : Reg) : Statement (.addReg dr sr1 sr2) := by
  apply BitVec.eq_of_getLsbD_eq
  intro i hi
  interval_cases i <;> simp [encode, rowOf, fieldAt]

theorem addImm (dr sr1 : Reg) (imm : Int) : Statement (.addImm dr sr1 imm) := by
  apply BitVec.eq_of_getLsbD_eq
  intro i hi
  interval_cases i <;> simp [encode, rowOf, fieldAt]

theorem ld (dr : Reg) (off : Int) : Statement (.ld dr off) := by
  apply BitVec.eq_of_getLsbD_eq
  intro i hi
  interval_cases i <;> simp [encode, rowOf, fieldAt]

theorem st (sr : Reg) (off : Int) : Statement (.st sr off) := by
  apply BitVec.eq_of_getLsbD_eq
  intro i hi
  interval_cases i <;> simp [encode, rowOf, fieldAt]

theorem jsr (off : Int) : Statement (.jsr off) := by
  apply BitVec.eq_of_getLsbD_eq
  intro i hi
  interval_cases i <;> simp [encode, rowOf, fieldAt]

theorem jsrr (base : Reg) : Statement (.jsrr base) := by
  apply BitVec.eq_of_getLsbD_eq
  intro i hi
  interval_cases i <;> simp [encode, rowOf, fieldAt]

theorem andReg (dr sr1 sr2 : Reg) : Statement (.andReg dr sr1 sr2) := by
  apply BitVec.eq_of_getLsbD_eq
  intro i hi
  interval_cases i <;> simp [encode, rowOf, fieldAt]

theorem andImm (dr sr1 : Reg) (imm : Int) : Statement (.andImm dr sr1 imm) := by
  apply BitVec.eq_of_getLsbD_eq
  intro i hi
  interval_cases i <;> simp [encode, rowOf, fieldAt]

theorem ldr (dr base : Reg) (off : Int) : Statement (.ldr dr base off) := by
  apply BitVec.eq_of_getLsbD_eq
  intro i hi
  interval_cases i <;> simp [encode, rowOf, fieldAt]

theorem str (sr base : Reg) (off : Int) : Statement (.str sr base off) := by
  apply BitVec.eq_of_getLsbD_eq
  intro i hi
  interval_cases i <;> simp [encode, rowOf, fieldAt]

theorem rti : Statement (.rti) := by
  rfl

theorem not (dr sr : Reg) : Statement (.not dr sr) := by
  apply BitVec.eq_of_getLsbD_eq
  intro i hi
  interval_cases i <;> simp [encode, rowOf, fieldAt]

theorem ldi (dr : Reg) (off : Int) : Statement (.ldi dr off) := by
  apply BitVec.eq_of_getLsbD_eq
  intro i hi
  interval_cases i <;> simp [encode, rowOf, fieldAt]

theorem sti (sr : Reg) (off : Int) : Statement (.sti sr off) := by
  apply BitVec.eq_of_getLsbD_eq
  intro i hi
  interval_cases i <;> simp [encode, rowOf, fieldAt]

theorem jmp (base : Reg) : Statement (.jmp base) := by
  apply BitVec.eq_of_getLsbD_eq
  intro i hi
  interval_cases i <;> simp [encode, rowOf, fieldAt]

theorem unusedOpcode (anyBits : BitVec 12) : Statement (.unusedOpcode anyBits) := by
  apply BitVec.eq_of_getLsbD_eq
  intro i hi
  interval_cases i <;> simp [encode, rowOf, fieldAt]

theorem lea (dr : Reg) (off : Int) : Statement (.lea dr off) := by
  apply BitVec.eq_of_getLsbD_eq
  intro i hi
  interval_cases i <;> simp [encode, rowOf, fieldAt]

theorem trap (vector : Nat) : Statement (.trap vector) := by
  apply BitVec.eq_of_getLsbD_eq
  intro i hi
  interval_cases i <;> simp [encode, rowOf, fieldAt]

end Sys2Proof.Laws.StrictMatch
end

