-- ==== Sys2Proof/Laws/Step.lean ====
section
/-! SUPPORT. What one step can do. -/

namespace Sys2Proof.Machine

/-- Every next state of a step comes from a granted interrupt or from the instruction fetched. -/
theorem step_next_cases {s t : State} (h : step s = .next t) :
    s.halted = false ∧ s.clockEnabled = true ∧
      ((s.interruptGranted = true ∧ t = s.takeInterrupt) ∨
        (s.interruptGranted = false ∧
          ∃ i, decode (s.readWord s.pc) = .instruction i ∧ exec i s.afterFetch = .next t)) := by
  unfold step at h
  split at h
  · cases h
  · rename_i hh
    split at h
    · cases h
    · rename_i hc
      refine ⟨by simpa using hh, by simpa using hc, ?_⟩
      split at h
      · rename_i hi
        cases h
        exact .inl ⟨hi, rfl⟩
      · rename_i hi
        refine .inr ⟨by simpa using hi, ?_⟩
        split at h
        · exact ⟨_, ‹_›, h⟩
        · cases h

/-- A step that fetches is decoded and executed, or refused as non-canonical. -/
theorem step_of_fetches {s : State} (h : s.fetches) :
    step s =
      match decode (s.readWord s.pc) with
      | .instruction i => exec i s.afterFetch
      | .nonCanonical w => .refused (.nonCanonical w) := by
  obtain ⟨hh, hc, hi⟩ := h
  simp only [step, hh, hc, hi]
  rfl

end Sys2Proof.Machine
end

