-- ==== Sys2Proof/Tests/Slice0.lean ====
section
/-! SUPPORT. Tests: ill-formed operands are refused; words written out from the encodings of 30_encoding.md decode
to their instructions; one step of each instruction on small states, with the results that 95_test_vectors.md Part 2
or the example of the instruction's own rule gives; and a witness for the hypotheses of every statement. -/

namespace Sys2Proof.Tests

open Sys2Proof.Machine

/-! ### WellFormed: a number that does not fit its field is refused (30_encoding.md R115) -/

theorem test_illformed_imm5 :
    (Instr.addImm .r1 .r1 16).wellFormed = false ∧ (Instr.addImm .r1 .r1 (-17)).wellFormed = false ∧
    (Instr.andImm .r1 .r1 16).wellFormed = false ∧ (Instr.andImm .r1 .r1 (-17)).wellFormed = false := by decide

theorem test_illformed_offset6 :
    (Instr.ldr .r1 .r2 32).wellFormed = false ∧ (Instr.ldr .r1 .r2 (-33)).wellFormed = false ∧
    (Instr.str .r1 .r2 32).wellFormed = false ∧ (Instr.str .r1 .r2 (-33)).wellFormed = false := by decide

theorem test_illformed_pcOffset9_high :
    (Instr.br true true true 256).wellFormed = false ∧ (Instr.ld .r0 256).wellFormed = false ∧
    (Instr.ldi .r0 256).wellFormed = false ∧ (Instr.st .r0 256).wellFormed = false ∧
    (Instr.sti .r0 256).wellFormed = false ∧ (Instr.lea .r0 256).wellFormed = false := by decide

theorem test_illformed_pcOffset9_low :
    (Instr.br true true true (-257)).wellFormed = false ∧ (Instr.ld .r0 (-257)).wellFormed = false ∧
    (Instr.ldi .r0 (-257)).wellFormed = false ∧ (Instr.st .r0 (-257)).wellFormed = false ∧
    (Instr.sti .r0 (-257)).wellFormed = false ∧ (Instr.lea .r0 (-257)).wellFormed = false := by decide

theorem test_illformed_pcOffset11 :
    (Instr.jsr 1024).wellFormed = false ∧ (Instr.jsr (-1025)).wellFormed = false := by decide

theorem test_illformed_trapVect8 : (Instr.trap 256).wellFormed = false := by decide

/-! ### Decoding: the words of 95_test_vectors.md Part 1.1, bit by bit as printed there -/

theorem test_decode_add :
    decode 0b0001_010_011_0_00_100 = .instruction (.addReg .r2 .r3 .r4) ∧
    decode 0b0001_010_011_1_00111 = .instruction (.addImm .r2 .r3 7) := by decide

theorem test_decode_and :
    decode 0b0101_010_011_0_00_100 = .instruction (.andReg .r2 .r3 .r4) ∧
    decode 0b0101_010_011_1_00111 = .instruction (.andImm .r2 .r3 7) := by decide

theorem test_decode_not : decode 0b1001_100_010_111111 = .instruction (.not .r4 .r2) := by decide

theorem test_decode_loads :
    decode 0b0010_100_000000100 = .instruction (.ld .r4 4) ∧
    decode 0b1010_100_000000001 = .instruction (.ldi .r4 1) ∧
    decode 0b0110_100_010_111011 = .instruction (.ldr .r4 .r2 (-5)) ∧
    decode 0b1110_100_000001111 = .instruction (.lea .r4 15) := by decide

theorem test_decode_stores :
    decode 0b0011_100_000000010 = .instruction (.st .r4 2) ∧
    decode 0b1011_100_000000011 = .instruction (.sti .r4 3) ∧
    decode 0b0111_100_010_000101 = .instruction (.str .r4 .r2 5) := by decide

theorem test_decode_br :
    decode 0b0000_011_111111011 = .instruction (.br false true true (-5)) ∧
    decode 0b0000_111_000000011 = .instruction (.br true true true 3) ∧
    decode 0b0000_100_100000000 = .instruction (.br true false false (-256)) := by decide

theorem test_decode_jumps :
    decode 0b1100_000_010_000000 = .instruction (.jmp .r2) ∧
    decode 0b1100_000_111_000000 = .instruction (.jmp .r7) ∧
    decode 0b0100_1_00000001111 = .instruction (.jsr 15) ∧
    decode 0b0100_0_00_011_000000 = .instruction (.jsrr .r3) := by decide

theorem test_decode_system :
    decode 0b1000_000000000000 = .instruction .rti ∧
    decode 0b1111_0000_00100101 = .instruction (.trap 0x25) ∧
    decode 0b1101_101010111100 = .instruction (.unusedOpcode 0xABC) := by decide

/-- The nine non-canonical words of 95_test_vectors.md are refused. -/
theorem test_decode_noncanonical :
    decode 0x9880 = .nonCanonical 0x9880 ∧
    decode 0x14CC = .nonCanonical 0x14CC ∧
    decode 0x5448 = .nonCanonical 0x5448 ∧
    decode 0xC280 = .nonCanonical 0xC280 ∧
    decode 0xC081 = .nonCanonical 0xC081 ∧
    decode 0x40C1 = .nonCanonical 0x40C1 ∧
    decode 0x42C0 = .nonCanonical 0x42C0 ∧
    decode 0xF125 = .nonCanonical 0xF125 ∧
    decode 0x8001 = .nonCanonical 0x8001 := by decide

/-- What they are under the other value of NONCANONICAL, as the same table says. -/
theorem test_decode_ignore :
    decodeWith .ignore 0x9880 = .instruction (.not .r4 .r2) ∧
    decodeWith .ignore 0x14CC = .instruction (.addReg .r2 .r3 .r4) ∧
    decodeWith .ignore 0x5448 = .instruction (.andReg .r2 .r1 .r0) ∧
    decodeWith .ignore 0xC280 = .instruction (.jmp .r2) ∧
    decodeWith .ignore 0x42C0 = .instruction (.jsrr .r3) ∧
    decodeWith .ignore 0xF125 = .instruction (.trap 0x25) ∧
    decodeWith .ignore 0x8001 = .instruction .rti := by decide

/-- The host's form: one word from the table's bits. -/
theorem test_decodeTableWord :
    decodeTableWord 16 0x903F = some (.not .r0 .r0) ∧ decodeTableWord 16 0x9000 = none := by decide

/-! ### One step -/

/-- The reset state at `pc` with the word there and the PSR given. -/
def start (pc psr : Word) (w : Nat) : State := { State.reset with pc := pc, psr := psr }.withFetchWord 16 w

/-- The next state of one step, if there is one. -/
def after (s : State) : Option State :=
  match step s with
  | .next t => some t
  | .fault _ => none
  | .refused _ => none

/-- Register, PC and PSR after one step. -/
def seen (r : Reg) (s : State) : Option (Word × Word × Word) := (after s).map fun t => (t.reg r, t.pc, t.psr)

/-- The word written at an address, PC and PSR after one step. -/
def stored (a : Word) (s : State) : Option (Option Word × Word × Word) :=
  (after s).map fun t => (Memory.lookup t.mem a.toNat, t.pc, t.psr)

/-- The exception that one step raises, with PC, PSR and R6 of the state that its fault carries. -/
def raised (s : State) : Option (ExceptionCause × Word × Word × Word) :=
  match step s with
  | .fault (.exception cause t) => some (cause, t.pc, t.psr, t.reg .r6)
  | _ => none

/-- 95_test_vectors.md A1. -/
theorem test_addReg_wraps :
    seen .r2 (((start 0x3000 0x8002 0x14C4).setReg .r3 0x7FFF).setReg .r4 1) = some (0x8000, 0x3001, 0x8004) := by decide

/-- 95_test_vectors.md A5. -/
theorem test_addReg_same : seen .r1 ((start 0x3000 0x8002 0x1241).setReg .r1 0x4000) =
      some (0x8000, 0x3001, 0x8004) := by decide

/-- 95_test_vectors.md A6. -/
theorem test_addImm_minus16 :
    seen .r2 ((start 0x3000 0x8001 0x14F0).setReg .r3 0x0010) = some (0x0000, 0x3001, 0x8002) := by decide

/-- 95_test_vectors.md A21: the PC wraps. -/
theorem test_addImm_pc_wraps :
    seen .r7 ((start 0xFFFF 0x8004 0x1FE1).setReg .r7 0xFFFF) = some (0x0000, 0x0000, 0x8002) := by decide

/-- 95_test_vectors.md A11. -/
theorem test_andReg :
    seen .r2 (((start 0x3000 0x8002 0x54C4).setReg .r3 0xFF00).setReg .r4 0x0FF0) = some (0x0F00, 0x3001, 0x8001) := by
  decide

/-- 95_test_vectors.md A14. -/
theorem test_andImm_minus16 :
    seen .r2 ((start 0x3000 0x8002 0x54F0).setReg .r3 0xFFFF) = some (0xFFF0, 0x3001, 0x8004) := by decide

/-- 95_test_vectors.md A20. -/
theorem test_not_same : seen .r3 ((start 0x3000 0x8002 0x96FF).setReg .r3 0x7FFF) =
      some (0x8000, 0x3001, 0x8004) := by decide

/-- 95_test_vectors.md M2. -/
theorem test_ld_low : seen .r4 ((start 0x3000 0x8001 0x2900).poke 0x2F01 0x0000) = some (0x0000, 0x3001, 0x8002) := by
  decide

/-- 95_test_vectors.md M4: the instruction loads its own word. -/
theorem test_ld_self : seen .r0 (start 0x3000 0x8002 0x21FF) = some (0x21FF, 0x3001, 0x8001) := by decide

/-- 95_test_vectors.md M6. -/
theorem test_ldi :
    seen .r4 (((start 0x3000 0x8002 0xA801).poke 0x3002 0x4000).poke 0x4000 0xFFFF) = some (0xFFFF, 0x3001, 0x8004) := by
  decide

/-- 95_test_vectors.md M10. -/
theorem test_ldr_wraps :
    seen .r4 (((start 0x3000 0x8002 0x68A0).setReg .r2 0x0010).poke 0xFFF0 0x8000) =
      some (0x8000, 0x3001, 0x8004) := by decide

/-- 95_test_vectors.md M11. -/
theorem test_ldr_same :
    seen .r2 (((start 0x3000 0x8002 0x6480).setReg .r2 0x4000).poke 0x4000 1) = some (0x0001, 0x3001, 0x8001) := by decide

/-- 95_test_vectors.md M13: the instruction overwrites its own word. -/
theorem test_st_self : stored 0x3000 ((start 0x3000 0x8002 0x39FF).setReg .r4 0x1234) = some (some 0x1234, 0x3001, 0x8002) := by
  decide

/-- 95_test_vectors.md M16. -/
theorem test_sti_own_pointer :
    stored 0x3004 (((start 0x3000 0x8002 0xB803).setReg .r4 0x00AA).poke 0x3004 0x3004) =
      some (some 0x00AA, 0x3001, 0x8002) := by decide

/-- 95_test_vectors.md M18. -/
theorem test_str_wraps : stored 0xFFFF (start 0x3000 0x8002 0x74BF) = some (some 0x0000, 0x3001, 0x8002) := by decide

/-- 95_test_vectors.md M20. -/
theorem test_lea_zero : seen .r4 (start 0x00FF 0x8001 0xE900) = some (0x0000, 0x0100, 0x8002) := by decide

/-- 95_test_vectors.md M22. -/
theorem test_lea_wraps : seen .r4 (start 0xFF80 0x8004 0xE8FF) = some (0x0080, 0xFF81, 0x8001) := by decide

/-- 95_test_vectors.md B1a, B1b. -/
theorem test_br_zp :
    ((after (start 0x3005 0x8004 0x07FB)).map State.pc, (after (start 0x3005 0x8002 0x07FB)).map State.pc) =
      (some 0x3006, some 0x3001) := by decide

/-- 95_test_vectors.md B3, B7. -/
theorem test_br_ends :
    ((after (start 0x3000 0x8001 0x00FF)).map State.pc, (after (start 0xFFFF 0x8002 0x0E01)).map State.pc) =
      (some 0x3001, some 0x0001) := by decide

/-- 95_test_vectors.md J1. -/
theorem test_jmp : (after ((start 0x3000 0x8002 0xC080).setReg .r2 0x4000)).map State.pc = some 0x4000 := by decide

/-- 95_test_vectors.md J4. -/
theorem test_jsr : seen .r7 (start 0x3000 0x8001 0x480F) = some (0x3001, 0x3010, 0x8001) := by decide

/-- The example of 42_control.md R187. -/
theorem test_jsrr : seen .r7 ((start 0x3000 0x8002 0x40C0).setReg .r3 0x5000) = some (0x3001, 0x5000, 0x8002) := by decide

/-- 42_control.md R188: JSRR R7 falls through. -/
theorem test_jsrr_r7 : seen .r7 ((start 0x3000 0x8002 0x41C0).setReg .r7 0x5000) = some (0x3001, 0x3001, 0x8002) := by decide

/-- 95_test_vectors.md T5. -/
theorem test_trap_input :
    (after ({ start 0x3000 0x8002 0xF023 with input := [0x7A, 0x0A] }.setReg .r0 0xFFFF)).map
      (fun t => (t.reg .r0, t.reg .r7, t.pc, t.input)) = some (0x007A, 0x3001, 0x3001, [0x0A]) := by decide

/-- 95_test_vectors.md T6: TRAP x23 with no input takes no step. -/
theorem test_trap_input_waits : step (start 0x3000 0x8002 0xF023) = .fault .waitingForInput := by rfl

/-- 95_test_vectors.md RT1. -/
theorem test_rti_to_user :
    (after ({ start 0x0400 0x0001 0x8000 with savedUsp := 0xBFF0 }.setReg .r6 0x2FFE
      |>.poke 0x2FFE 0x3005 |>.poke 0x2FFF 0x8002)).map
      (fun t => (t.pc, t.psr, t.reg .r6, t.savedSsp)) = some (0x3005, 0x8002, 0xBFF0, 0x3000) := by decide

/-- 95_test_vectors.md E1, but for the pushed PC, which is free. -/
theorem test_rti_in_user_mode :
    (after (((start 0x3000 0x8001 0x8000).setReg .r6 0xBFF0).poke 0x0100 0x0300)).map
      (fun t => (t.pc, t.psr, t.reg .r6, t.savedUsp, Memory.lookup t.mem 0x2FFF)) =
      some (0x0300, 0x0001, 0x2FFE, 0xBFF0, some 0x8001) := by decide

/-- 95_test_vectors.md E2, but for the pushed PC, which is free. -/
theorem test_unused_opcode :
    (after (((start 0x0250 0x0004 0xD000).setReg .r6 0x2FFE).poke 0x0101 0x0310)).map
      (fun t => (t.pc, t.psr, t.reg .r6, Memory.lookup t.mem 0x2FFD)) = some (0x0310, 0x0004, 0x2FFC, some 0x0004) := by
  decide

/-! ### Witnesses: a state and operands that meet the hypotheses of each statement, at the ends of its ranges -/

/-- The reset state with the customary devices, the keyboard as an interrupt source, and a character waiting with
the interrupt enabled (20_memory.md R78, 60_exceptions.md R217). -/
def withDevices (psr : Word) : State :=
  { State.reset with
    psr := psr, kbsr := 0xC000, kbdr := 0x0061,
    platform := { deviceMap := .customary, interruptSources := .keyboard, trapModel := .vectored } }

theorem witness_DecodeOfEncode :
    (Instr.br true false true (-256)).WellFormed ∧ (Instr.addReg .r0 .r1 .r2).WellFormed ∧
    (Instr.addImm .r0 .r1 15).WellFormed ∧ (Instr.ld .r0 255).WellFormed ∧ (Instr.st .r0 (-256)).WellFormed ∧
    (Instr.jsr (-1024)).WellFormed ∧ (Instr.jsr 1023).WellFormed ∧ (Instr.jsrr .r7).WellFormed ∧
    (Instr.andReg .r0 .r1 .r2).WellFormed ∧ (Instr.andImm .r0 .r1 (-16)).WellFormed ∧
    (Instr.ldr .r0 .r1 31).WellFormed ∧ (Instr.str .r0 .r1 (-32)).WellFormed ∧ Instr.rti.WellFormed ∧
    (Instr.not .r0 .r1).WellFormed ∧ (Instr.ldi .r0 255).WellFormed ∧ (Instr.sti .r0 255).WellFormed ∧
    (Instr.jmp .r7).WellFormed ∧ (Instr.unusedOpcode 0xFFF).WellFormed ∧ (Instr.lea .r0 255).WellFormed ∧
    (Instr.trap 0).WellFormed ∧ (Instr.trap 255).WellFormed := by decide

theorem witness_EncodeOfDecode : decode 0x1FF0 = .instruction (.addImm .r7 .r7 (-16)) := by decide

theorem witness_UnfittingNumberHasNoEncoding : ¬ (Instr.addImm .r1 .r1 16).WellFormed := by decide

theorem witness_RefusedWordsMatchNoRow :
    decode 0x9880 = .nonCanonical 0x9880 ∧ (∀ row ∈ strictRows, (0x9880 : Word) &&& row.2 ≠ row.1) :=
  ⟨by decide, by simp [strictRows]⟩

theorem witness_LooseDecodingIsTotal : decode 0x8000 = .instruction .rti := by decide

theorem witness_AddressesWrapModuloMemory :
    (State.reset.pcRelative9 (-256)).toNat = 0x2F00 ∧ (State.reset.pcRelative9 255).toNat = 0x30FF ∧
    (State.reset.pcRelative11 (-1024)).toNat = 0x2C00 ∧ (State.reset.pcRelative11 1023).toNat = 0x33FF ∧
    (State.reset.baseOffset .r0 (-32)).toNat = 0xFFE0 ∧ (State.reset.baseOffset .r0 31).toNat = 0x001F := by decide

theorem witness_TrapTableAddressOfVector :
    ((0x7F < 256 ∧ 0x7F < 0x80) ∧ trapTableAddress 0x7F = 0x007F) ∧
    ((0x80 < 256 ∧ 0x80 ≤ 0x80) ∧ trapTableAddress 0x80 = 0xFF80) ∧ trapTableAddress 0xFF = 0xFFFF := by decide

theorem witness_WrittenWordIsReadBack :
    deviceAt State.reset.platform.deviceMap 0xFE00 = none ∧
    deviceAt (withDevices 0x8302).platform.deviceMap 0xFDFF = none ∧
    deviceAt (withDevices 0x8302).platform.deviceMap 0xFFFF = none := by decide

theorem witness_PlainReadHasNoSideEffect : deviceAt (withDevices 0x8302).platform.deviceMap 0xFE01 = none := by decide

theorem witness_NextFetchSeesTheStore :
    State.reset.fetches ∧ State.reset.platform.deviceMap = .empty ∧ decode 0xF025 = .instruction (.trap 0x25) :=
  ⟨⟨rfl, rfl, rfl⟩, rfl, by decide⟩

theorem witness_SetccSaysTheSign :
    ((State.reset.setReg .r1 0x7FFF).setReg .r2 0x0001).reg .r1 = 0x7FFF ∧
    ((State.reset.setReg .r1 0x7FFF).setReg .r2 0x0001).reg .r2 = 0x0001 := by decide

theorem witness_OneCodeSetUnlessRtiPopsMalformed :
    State.reset.codesOneHot ∧ ∃ t, step (start 0x3000 0x8002 0xC1C0) = .next t :=
  ⟨.inr (.inl (by decide)), _, rfl⟩

theorem witness_StepKeepsInv :
    (start 0x3000 0x8002 0x3800).Inv ∧ ∃ t, step (start 0x3000 0x8002 0x3800) = .next t :=
  ⟨⟨by decide, by decide⟩, _, rfl⟩

theorem witness_StepRunsDecodedInstruction :
    (start 0x3000 0x8002 0xE80F).halted = false ∧ (start 0x3000 0x8002 0xE80F).clockEnabled = true ∧
    (start 0x3000 0x8002 0xE80F).interruptGranted = false ∧
    decode ((start 0x3000 0x8002 0xE80F).readWord (start 0x3000 0x8002 0xE80F).pc) = .instruction (.lea .r4 15) := by decide

theorem witness_NonCanonicalWordIsRefused :
    (start 0x3000 0x8002 0x8001).fetches ∧
    ∀ row ∈ strictRows, (start 0x3000 0x8002 0x8001).readWord 0x3000 &&& row.2 ≠ row.1 :=
  ⟨⟨rfl, rfl, rfl⟩, by
    have h : (start 0x3000 0x8002 0x8001).readWord 0x3000 = 0x8001 := by decide
    rw [h]
    simp [strictRows]⟩

/-- One state for each of the four outcomes. -/
theorem witness_EveryInstructionCompletes :
    (Instr.rti.WellFormed ∧ ∃ t, exec .rti (State.reset.poke 0x0100 0x0300) = .next t) ∧
    ((Instr.trap 0x23).WellFormed ∧ exec (.trap 0x23) State.reset = .fault .waitingForInput) ∧
    exec .rti State.reset = .fault (.exception .privilegeModeViolation State.reset) ∧
    (Instr.unusedOpcode 0).WellFormed ∧ exec (.unusedOpcode 0) State.reset = .fault (.exception .illegalOpcode State.reset) :=
  ⟨⟨by decide, _, rfl⟩, ⟨by decide, rfl⟩, rfl, by decide, rfl⟩

/-- Both directions: RTI in User mode enters Supervisor mode, RTI that pops x8002 enters User mode. -/
theorem witness_ModeChangesOnlyByEntryAndRti :
    ((start 0x3000 0x8001 0x8000).userMode = true ∧
      (after ((start 0x3000 0x8001 0x8000).poke 0x0100 0x0300)).map State.userMode = some false) ∧
    ((((start 0x0400 0x0001 0x8000).poke 0 0x3005).poke 1 0x8002).userMode = false ∧
      (after (((start 0x0400 0x0001 0x8000).poke 0 0x3005).poke 1 0x8002)).map State.userMode = some true) := by decide

theorem witness_OnlyRtiDependsOnTheMode :
    Instr.jmp .r0 ≠ .rti ∧ ∀ b, Instr.jmp .r0 ≠ .unusedOpcode b := ⟨by decide, fun _ => nofun⟩

theorem witness_PsrAndSavedPointersFrame :
    (∃ t, step (start 0x3000 0x8002 0xF030) = .next t) ∧ (start 0x3000 0x8002 0xF030).interruptGranted = false ∧
    decode ((start 0x3000 0x8002 0xF030).readWord 0x3000) = .instruction (.trap 0x30) :=
  ⟨⟨_, rfl⟩, by decide, by decide⟩

theorem witness_OnlyStoresAndEntriesWriteMemory :
    (∃ t, step (start 0x0400 0x0002 0x8000) = .next t) ∧ (start 0x0400 0x0002 0x8000).interruptGranted = false ∧
    decode ((start 0x0400 0x0002 0x8000).readWord 0x0400) = .instruction .rti ∧ (start 0x0400 0x0002 0x8000).userMode = false :=
  ⟨⟨_, rfl⟩, by decide, by decide, by decide⟩

theorem witness_StepKeepsPlatform : ∃ t, step (withDevices 0x8302) = .next t := ⟨_, rfl⟩

theorem witness_immediate_ranges :
    ((-16 : Int) ≤ -16 ∧ (-16 : Int) ≤ 15) ∧ ((-256 : Int) ≤ 255 ∧ (255 : Int) ≤ 255) ∧
    ((-32 : Int) ≤ -32 ∧ (31 : Int) ≤ 31) ∧ ((-1024 : Int) ≤ -1024 ∧ (-1024 : Int) ≤ 1023) := by decide

theorem witness_SubtractionByNotAndAdd : Reg.r3 ≠ Reg.r1 := by decide

theorem witness_BrCornerCases :
    State.reset.codesOneHot ∧ { State.reset with psr := 0x8000 }.codeN = false ∧
    { State.reset with psr := 0x8000 }.codeZ = false ∧ { State.reset with psr := 0x8000 }.codeP = false :=
  ⟨.inr (.inl (by decide)), by decide, by decide, by decide⟩

/-- A vector without a service when the host performs the services, and one with when it does not. -/
theorem witness_TrapVectoredResult :
    (0x22 < 256 ∧ 0x22 ≠ 0x21 ∧ 0x22 ≠ 0x23 ∧ 0x22 ≠ 0x25) ∧ (0x80 < 256 ∧ 0x80 ≠ 0x25 ∧ 0x80 ≤ 0x80) ∧
    (0xFF < 256 ∧ 0xFF ≠ 0x25) ∧ State.reset.platform.deviceMap = .empty ∧
    (withDevices 0x8302).platform.trapModel = .vectored ∧ State.reset.platform.trapModel = .hostService := by decide

theorem witness_TrapServices :
    State.reset.platform.trapModel = .hostService ∧ State.reset.input = [] ∧
    { State.reset with input := [0x61] }.platform.trapModel = .hostService ∧
    { State.reset with input := [0x61] }.input = 0x61 :: [] := by decide

theorem witness_RtiInUserModeTraps :
    (State.reset.poke 0x0100 0x0300).userMode = true ∧
    (Memory.lookup (State.reset.poke 0x0100 0x0300).mem 0x0100).isSome = true := by decide

theorem witness_UnusedOpcodeTraps :
    (Memory.lookup (State.reset.poke 0x0101 0x0310).mem 0x0101).isSome = true := by decide

/-- 95_test_vectors.md RT4 and E4: the exception's table entry has not been written; the fault carries PC x3001. -/
theorem witness_ExceptionNotSetUpIsAFault :
    (start 0x3000 0x8001 0x8000).userMode = true ∧ Memory.lookup (start 0x3000 0x8001 0x8000).mem 0x0100 = none ∧
    raised ((start 0x3000 0x8001 0x8000).setReg .r6 0xBFF0) = some (.privilegeModeViolation, 0x3001, 0x8001, 0xBFF0) ∧
    Memory.lookup (start 0x3000 0x8002 0xD000).mem 0x0101 = none ∧
    raised (start 0x3000 0x8002 0xD000) = some (.illegalOpcode, 0x3001, 0x8002, 0x0000) := by decide

theorem witness_RtiInSupervisorModeReturns : { State.reset with psr := 0x0002 }.userMode = false := by decide

theorem witness_RtiUndoesTheEntry : State.reset.platform.deviceMap = .empty := rfl

/-- Priority 3 is below the keyboard's level. -/
theorem witness_KeyboardInterruptIsTaken :
    (withDevices 0x8302).halted = false ∧ (withDevices 0x8302).clockEnabled = true ∧
    (withDevices 0x8302).platform.interruptSources = .keyboard ∧ (withDevices 0x8302).kbsr.getLsbD 15 = true ∧
    (withDevices 0x8302).kbsr.getLsbD 14 = true ∧ (withDevices 0x8302).priority < 4 := by decide

/-- One state for each of the four reasons; priority 4 is not below the keyboard's level. -/
theorem witness_NoInterruptWithoutRequest :
    State.reset.platform.interruptSources = .none ∧
    { withDevices 0x8302 with kbsr := 0x4000 }.kbsr.getLsbD 15 = false ∧
    { withDevices 0x8302 with kbsr := 0x8000 }.kbsr.getLsbD 14 = false ∧ ¬ (withDevices 0x8402).priority < 4 := by decide

theorem witness_HaltedTakesNoStep : { State.reset with halted := true }.halted = true := rfl

/-- With a character waiting in KBDR and the display ready; and with none, input to present and the display busy. -/
theorem witness_CustomaryDeviceRegisters :
    ((withDevices 0x8302).platform.deviceMap = .customary ∧ (withDevices 0x8302).Inv ∧
      (withDevices 0x8302).kbsr.getLsbD 15 = true ∧ (withDevices 0x8302).dsr.getLsbD 15 = true ∧
      (withDevices 0x8302).halted = false) ∧
    ({ withDevices 0x8302 with kbsr := 0, dsr := 0, input := [0x7A] }.Inv ∧
      { withDevices 0x8302 with kbsr := 0, dsr := 0, input := [0x7A] }.input = 0x7A :: [] ∧
      { withDevices 0x8302 with kbsr := 0, dsr := 0, input := [0x7A] }.kbsr.getLsbD 15 = false) ∧
    (0x7FFF : Word).getLsbD 15 = false :=
  ⟨⟨rfl, ⟨by decide, by decide⟩, by decide, by decide, rfl⟩, ⟨⟨by decide, by decide⟩, rfl, by decide⟩, by decide⟩

/-- STR to DDR and LDI of KBDR reach the device (20_memory.md R78). -/
theorem test_store_and_load_reach_the_device :
    (after ((((withDevices 0x8402).setReg .r1 0xFE06).setReg .r2 0x0141).poke 0x3000 0x7440)).map
      (fun t => (t.output, Memory.lookup t.mem 0xFE06)) = some ([0x41], none) ∧
    (after (((withDevices 0x8402).poke 0x3000 0xA401).poke 0x3002 0xFE02)).map
      (fun t => (t.reg .r2, t.kbsr)) = some (0x0061, 0x4000) := by decide

end Sys2Proof.Tests
end

section
/-! The condition codes: what `setcc` leaves (10_state.md R28), and what one step can do to the PSR, from which the
one-hot invariant of the codes follows (10_state.md R27). -/

namespace Sys2Proof.Machine

/-! ### The PSR through the shared operations -/

@[simp] theorem State.writeResult_psr (s : State) (dr : Reg) (v : Word) :
    (s.writeResult dr v).psr = (s.setCode (codeOf v)).psr := rfl

@[simp] theorem State.load_psr (s : State) (dr : Reg) (ea : Word) :
    (s.load dr ea).psr = (s.setCode (codeOf (s.readWord ea))).psr := by
  simp [State.load]

@[simp] theorem State.trapVectored_psr (s : State) (vector : Nat) : (s.trapVectored vector).psr = s.psr := by
  simp [State.trapVectored]

@[simp] theorem State.afterService_psr (s : State) :
    s.afterService.psr = (s.setCode (Config.serviceCode s.freeIndex)).psr := rfl

/-- LEA writes its address as a result, since LEA_SETS_CC is true (41_data_movement.md R163). -/
theorem execLea_eq (dr : Reg) (off : Int) (s : State) :
    execLea dr off s = .next (s.writeResult dr (s.pcRelative9 off)) := rfl

/-! ### One-hot codes through the PSR updates -/

theorem State.codesOneHot_of_codes {s t : State}
    (h : t.codeN = s.codeN ∧ t.codeZ = s.codeZ ∧ t.codeP = s.codeP) : t.codesOneHot ↔ s.codesOneHot := by
  obtain ⟨hn, hz, hp⟩ := h
  simp only [State.codesOneHot, hn, hz, hp]

theorem State.enterSupervisor_codesOneHot (s : State) : s.enterSupervisor.codesOneHot ↔ s.codesOneHot :=
  State.codesOneHot_of_codes s.enterSupervisor_codes

theorem State.setPriority_codesOneHot (s : State) (level : BitVec 3) :
    (s.setPriority level).codesOneHot ↔ s.codesOneHot :=
  State.codesOneHot_of_codes (s.setPriority_codes level)

/-- An entry clears PSR[15] alone, so it keeps the codes. -/
theorem State.enter_codesOneHot (s : State) (code : Byte) (savedPc : Word) :
    (s.enter code savedPc).codesOneHot ↔ s.codesOneHot :=
  (State.codesOneHot_of_psr (s := s.enterSupervisor) (s.enter_psr code savedPc)).trans s.enterSupervisor_codesOneHot

theorem State.takeInterrupt_codesOneHot (s : State) : s.takeInterrupt.codesOneHot ↔ s.codesOneHot :=
  (State.setPriority_codesOneHot _ _).trans (s.enter_codesOneHot _ _)

theorem State.afterFetch_codesOneHot (s : State) : s.afterFetch.codesOneHot ↔ s.codesOneHot :=
  State.codesOneHot_of_psr s.afterFetch_psr

theorem State.reset_codesOneHot : State.reset.codesOneHot := .inr (.inl ⟨rfl, rfl, rfl⟩)

/-! ### What one instruction can do to the PSR -/

/-- The four ways the instruction `i`, executed in `s`, can leave the PSR of the next state `t`. -/
inductive PsrEffect (s : State) (i : Instr) (t : State) : Prop where
  /-- The PSR is as it was: branches, jumps, stores and traps through the table. -/
  | kept (h : t.psr = s.psr)
  /-- One condition code is set: results, loads and host services. -/
  | coded (c : ConditionCode) (h : t.psr = (s.setCode c).psr)
  /-- An exception is taken (60_exceptions.md R219). -/
  | excepted (hi : (i = .rti ∧ s.userMode = true) ∨ ∃ anyBits, i = .unusedOpcode anyBits)
      (h : t.psr = s.enterSupervisor.psr)
  /-- RTI in Supervisor mode: the PSR is the popped word, whatever it is (42_control.md R194). -/
  | popped (hi : i = .rti) (hu : s.userMode = false) (h : t.psr = s.afterPop.popValue)

theorem execTrap_psrEffect {vector : Nat} {s t : State} (h : execTrap vector s = .next t) :
    PsrEffect s (.trap vector) t := by
  rcases execTrap_cases vector s with e | ⟨-, e⟩ | ⟨-, -, e⟩ | ⟨c, rest, -, -, e⟩ | ⟨-, e⟩ <;> rw [e] at h <;> cases h
  case inl => exact .kept (s.trapVectored_psr vector)
  all_goals exact .coded (Config.serviceCode s.freeIndex) s.afterService_psr

theorem execRti_psrEffect {s t : State} (h : execRti s = .next t) : PsrEffect s .rti t := by
  rcases execRti_next h with ⟨hu, rfl⟩ | ⟨hu, rfl⟩
  · exact .excepted (.inl ⟨rfl, hu⟩) (s.takeException_psr _)
  · exact .popped rfl hu s.returnFromInterrupt_psr

theorem execUnusedOpcode_psrEffect {anyBits : BitVec 12} {s t : State} (h : execUnusedOpcode anyBits s = .next t) :
    PsrEffect s (.unusedOpcode anyBits) t := by
  obtain ⟨-, rfl⟩ := State.raiseException_next h
  exact .excepted (.inr ⟨anyBits, rfl⟩) (s.takeException_psr _)

/-- Everything an instruction that completes can do to the PSR. -/
theorem exec_psrEffect {i : Instr} {s t : State} (h : exec i s = .next t) : PsrEffect s i t := by
  cases i with
  | rti => exact execRti_psrEffect h
  | unusedOpcode anyBits => exact execUnusedOpcode_psrEffect h
  | trap vector => exact execTrap_psrEffect h
  | br n z p off =>
    cases h
    exact .kept (by split <;> rfl)
  | jsr off | jsrr base | jmp base =>
    cases h
    exact .kept rfl
  | st sr off | str sr base off | sti sr off =>
    cases h
    exact .kept (by simp)
  | addReg dr sr1 sr2 | addImm dr sr1 imm | andReg dr sr1 sr2 | andImm dr sr1 imm | not dr sr =>
    cases h
    exact .coded _ (State.writeResult_psr ..)
  | lea dr off =>
    cases (execLea_eq dr off s).symm.trans h
    exact .coded _ (State.writeResult_psr ..)
  | ld dr off | ldr dr base off =>
    cases h
    exact .coded _ (State.load_psr ..)
  | ldi dr off =>
    cases h
    exact .coded _ (by rw [State.load_psr, State.setCode_psr, State.afterRead_psr]; rfl)

/-- One-hot codes stay one-hot, unless the PSR was popped. -/
theorem PsrEffect.codesOneHot_or_popped {s t : State} {i : Instr} (e : PsrEffect s i t) (hs : s.codesOneHot) :
    t.codesOneHot ∨ (i = .rti ∧ s.userMode = false ∧ t.psr = s.afterPop.popValue) := by
  cases e with
  | kept h => exact .inl ((State.codesOneHot_of_psr h).2 hs)
  | coded c h => exact .inl ((State.codesOneHot_of_psr h).2 (s.setCode_codesOneHot c))
  | excepted _ h => exact .inl ((State.codesOneHot_of_psr h).2 (s.enterSupervisor_codesOneHot.2 hs))
  | popped hi hu h => exact .inr ⟨hi, hu, h⟩

/-- A step keeps the codes one-hot, unless it is an RTI that pops the PSR (10_state.md R27). -/
theorem step_codesOneHot_or_rti_pops {s t : State} (hs : s.codesOneHot) (h : step s = .next t) :
    t.codesOneHot ∨
      (s.userMode = false ∧ decode (s.readWord s.pc) = .instruction .rti ∧
        t.psr = s.afterFetch.afterPop.popValue) := by
  obtain ⟨-, -, ⟨-, rfl⟩ | ⟨-, i, hd, he⟩⟩ := step_next_cases h
  · exact .inl (s.takeInterrupt_codesOneHot.2 hs)
  · refine ((exec_psrEffect he).codesOneHot_or_popped (s.afterFetch_codesOneHot.2 hs)).imp_right ?_
    rintro ⟨rfl, hu, hp⟩
    exact ⟨s.afterFetch_userMode ▸ hu, hd, hp⟩

/-- Settles O14: reset and `setcc` establish the one-hot codes, and a step keeps them through one of the four
effects an instruction can have on the PSR. -/
theorem oneCodeSetUnlessRtiPopsMalformed : Obligations.OneCodeSetUnlessRtiPopsMalformed :=
  ⟨State.reset_codesOneHot, State.setCC_codesOneHot, fun _ _ => step_codesOneHot_or_rti_pops⟩

/-! ### What `setcc` says of the value -/

/-- The code that `setcc` picks, by the bits of the value (10_state.md R28). -/
theorem codeOf_bits (v : Word) :
    (codeOf v == .n) = v.getLsbD 15 ∧ (codeOf v == .z) = decide (v = 0) ∧
      (codeOf v == .p) = (!v.getLsbD 15 && decide (v ≠ 0)) := by
  unfold codeOf
  cases hn : v.getLsbD 15 with
  | true =>
    have hv : v ≠ 0#16 := by rintro rfl; simp at hn
    simp [hv]
  | false => by_cases hz : v = 0#16 <;> simp [hz]

theorem State.setCC_codes (s : State) (v : Word) :
    (s.setCC v).codeN = v.getLsbD 15 ∧ (s.setCC v).codeZ = decide (v = 0) ∧
      (s.setCC v).codeP = (!v.getLsbD 15 && decide (v ≠ 0)) := by
  obtain ⟨hn, hz, hp⟩ := s.setCode_codes (codeOf v)
  obtain ⟨cn, cz, cp⟩ := codeOf_bits v
  exact ⟨hn.trans cn, hz.trans cz, hp.trans cp⟩

/-- The codes of a result are those of the register it was written to. -/
theorem State.writeResult_codesSay_reg (s : State) (dr : Reg) (v : Word) :
    (s.writeResult dr v).codesSay ((s.writeResult dr v).reg dr) := by
  have hdr : (s.writeResult dr v).reg dr = v := by simp
  rw [hdr]
  exact (s.setReg dr v).setCC_codesSay v

/-- The sum is tested after wrap-around: x7FFF + x0001 = x8000 is negative. -/
theorem execAddReg_overflow_setsN {s : State} {sr1 sr2 : Reg} (dr : Reg) (h1 : s.reg sr1 = 0x7FFF)
    (h2 : s.reg sr2 = 0x0001) :
    ∃ t, exec (.addReg dr sr1 sr2) s = .next t ∧ t.reg dr = 0x8000 ∧ t.codeN = true := by
  have hsum : s.reg sr1 + s.reg sr2 = 0x8000 := by rw [h1, h2]; rfl
  refine ⟨s.writeResult dr (s.reg sr1 + s.reg sr2), rfl, ?_, ?_⟩
  · rw [State.writeResult_reg, if_pos rfl, hsum]
  · obtain ⟨hn, -, -⟩ := (s.setReg dr (s.reg sr1 + s.reg sr2)).setCC_codes (s.reg sr1 + s.reg sr2)
    exact hn.trans (by rw [hsum]; rfl)

/-- Settles O13: the three branches of `codeOf` are exclusive and exhaustive, and the value tested is the wrapped one
that DR receives. -/
theorem setccSaysTheSign : Obligations.SetccSaysTheSign := by
  refine ⟨fun s v => ?_, State.writeResult_codesSay_reg, fun s dr sr1 sr2 => execAddReg_overflow_setsN dr⟩
  obtain ⟨hn, hz, hp⟩ := s.setCC_codes v
  exact ⟨hn, hz, hp, s.setCC_codesSay v, s.setCC_codesOneHot v, s.setCC_samePsrAboveCodes v⟩

end Sys2Proof.Machine
end

section
/-! ADD, AND and NOT (40_arithmetic.md): the decoder at their opcodes, their meanings as one `writeResult` each, and
the values of their results. -/

namespace Sys2Proof.Machine

/-! ### The decoder at the opcodes of ADD, AND and NOT -/

/-- A word whose fixed bits agree is accepted under either policy (30_encoding.md R104). -/
theorem checkFixed_of_agree (policy : NonCanonicalPolicy) (w : Word) (i : Instr) {agree : Bool} (h : agree = true) :
    checkFixed policy w agree i = .instruction i := by
  rw [checkFixed, h, Bool.true_or, if_pos rfl]

theorem decode_of_opcode_add {w : Word} (hop : opcodeField w = 0b0001) :
    decode w =
      if w.getLsbD 5 then .instruction (.addImm (regField11 w) (regField8 w) (imm5Field w))
      else checkFixed Config.nonCanonical w (w.extractLsb' 3 2 == 0b00)
        (.addReg (regField11 w) (regField8 w) (regField2 w)) := by
  rw [decode, decodeWith, hop]; rfl

theorem decode_of_opcode_and {w : Word} (hop : opcodeField w = 0b0101) :
    decode w =
      if w.getLsbD 5 then .instruction (.andImm (regField11 w) (regField8 w) (imm5Field w))
      else checkFixed Config.nonCanonical w (w.extractLsb' 3 2 == 0b00)
        (.andReg (regField11 w) (regField8 w) (regField2 w)) := by
  rw [decode, decodeWith, hop]; rfl

theorem decode_of_opcode_not {w : Word} (hop : opcodeField w = 0b1001) :
    decode w =
      checkFixed Config.nonCanonical w (w.extractLsb' 0 6 == 0b111111) (.not (regField11 w) (regField8 w)) := by
  rw [decode, decodeWith, hop]; rfl

/-! ### The encodings: opcode, mode bit and fixed bits of each row (30_encoding.md R101) -/

theorem encodedAs_addReg :
    encodedAs 0x1000 0xF038 (fun w => .addReg (regField11 w) (regField8 w) (regField2 w)) := by
  intro w h
  have hop : opcodeField w = 0b0001 := opcode_of_masked h (by decide)
  have hmode : w.getLsbD 5 = false := bit_of_masked h (by decide)
  have hfixed : w.extractLsb' 3 2 = 0b00 := field_of_masked h (by decide)
  rw [decode_of_opcode_add hop, hmode, if_neg Bool.false_ne_true]
  exact checkFixed_of_agree _ w _ (beq_iff_eq.2 hfixed)

theorem encodedAs_addImm :
    encodedAs 0x1020 0xF020 (fun w => .addImm (regField11 w) (regField8 w) (imm5Field w)) := by
  intro w h
  have hop : opcodeField w = 0b0001 := opcode_of_masked h (by decide)
  have hmode : w.getLsbD 5 = true := bit_of_masked h (by decide)
  rw [decode_of_opcode_add hop, if_pos hmode]

theorem encodedAs_andReg :
    encodedAs 0x5000 0xF038 (fun w => .andReg (regField11 w) (regField8 w) (regField2 w)) := by
  intro w h
  have hop : opcodeField w = 0b0101 := opcode_of_masked h (by decide)
  have hmode : w.getLsbD 5 = false := bit_of_masked h (by decide)
  have hfixed : w.extractLsb' 3 2 = 0b00 := field_of_masked h (by decide)
  rw [decode_of_opcode_and hop, hmode, if_neg Bool.false_ne_true]
  exact checkFixed_of_agree _ w _ (beq_iff_eq.2 hfixed)

theorem encodedAs_andImm :
    encodedAs 0x5020 0xF020 (fun w => .andImm (regField11 w) (regField8 w) (imm5Field w)) := by
  intro w h
  have hop : opcodeField w = 0b0101 := opcode_of_masked h (by decide)
  have hmode : w.getLsbD 5 = true := bit_of_masked h (by decide)
  rw [decode_of_opcode_and hop, if_pos hmode]

theorem encodedAs_not :
    encodedAs 0x903F 0xF03F (fun w => .not (regField11 w) (regField8 w)) := by
  intro w h
  have hop : opcodeField w = 0b1001 := opcode_of_masked h (by decide)
  have hfixed : w.extractLsb' 0 6 = 0b111111 := field_of_masked h (by decide)
  rw [decode_of_opcode_not hop]
  exact checkFixed_of_agree _ w _ (beq_iff_eq.2 hfixed)

/-! ### Each instruction writes one result, computed from the state before (40_arithmetic.md R138) -/

theorem exec_addReg (dr sr1 sr2 : Reg) (s : State) :
    exec (.addReg dr sr1 sr2) s = .next (s.writeResult dr (s.reg sr1 + s.reg sr2)) := rfl

theorem exec_andReg (dr sr1 sr2 : Reg) (s : State) :
    exec (.andReg dr sr1 sr2) s = .next (s.writeResult dr (s.reg sr1 &&& s.reg sr2)) := rfl

theorem exec_not (dr sr : Reg) (s : State) : exec (.not dr sr) s = .next (s.writeResult dr (~~~s.reg sr)) := rfl

/-- The range of an immediate, as the statements write it, is what fits the field (30_encoding.md R93). -/
theorem fitsSigned_imm5 {imm : Int} (hlo : -16 ≤ imm) (hhi : imm ≤ 15) : fitsSigned 5 imm :=
  ⟨hlo, Int.lt_add_one_of_le hhi⟩

theorem exec_addImm {imm : Int} (h : fitsSigned 5 imm) (dr sr1 : Reg) (s : State) :
    exec (.addImm dr sr1 imm) s = .next (s.writeResult dr (s.reg sr1 + BitVec.ofInt 16 imm)) := by
  rw [← sext5_eq h]; rfl

theorem exec_andImm {imm : Int} (h : fitsSigned 5 imm) (dr sr1 : Reg) (s : State) :
    exec (.andImm dr sr1 imm) s = .next (s.writeResult dr (s.reg sr1 &&& BitVec.ofInt 16 imm)) := by
  rw [← sext5_eq h]; rfl

theorem State.writeResult_reg_same (s : State) (dr : Reg) (v : Word) : (s.writeResult dr v).reg dr = v :=
  (s.writeResult_reg dr dr v).trans (if_pos rfl)

theorem State.writeResult_resultWritten (s : State) (dr : Reg) (v : Word) :
    s.resultWritten (s.writeResult dr v) dr v := s.writeResult_spec dr v

/-! ### The values as integers -/

/-- The wrapped sum of two words, read as signed, is their sum cut to 16 bits (40_arithmetic.md R131). -/
theorem add_eq_ofInt_toInt_add (a b : Word) : a + b = BitVec.ofInt 16 (a.toInt + b.toInt) := by
  rw [BitVec.ofInt_add, BitVec.ofInt_toInt, BitVec.ofInt_toInt]

theorem add_ofInt_eq_ofInt_toInt_add (a : Word) (imm : Int) :
    a + BitVec.ofInt 16 imm = BitVec.ofInt 16 (a.toInt + imm) := by
  rw [BitVec.ofInt_add, BitVec.ofInt_toInt]

/-- Inverting every bit is -v - 1, without wrap-around (40_arithmetic.md R130). -/
theorem toInt_not_word (v : Word) : (~~~v).toInt = -v.toInt - 1 := by
  have hv : v.toNat < 2 ^ 16 := v.isLt
  rw [BitVec.toInt_eq_toNat_cond, BitVec.toInt_eq_toNat_cond, BitVec.toNat_not]
  split <;> split <;> omega

/-! ### The statements -/

/-- Settles O26: the one sum is the wrapped sum of the operands read as unsigned and as signed. -/
theorem addRegisterResult : Obligations.AddRegisterResult :=
  ⟨encodedAs_addReg, fun dr sr1 sr2 s =>
    ⟨_, _, exec_addReg dr sr1 sr2 s, s.writeResult_resultWritten dr _, BitVec.toNat_add _ _,
      add_eq_ofInt_toInt_add _ _⟩⟩

/-- Settles O27: an immediate in range is sign-extended to the integer it was written as. -/
theorem addImmediateResult : Obligations.AddImmediateResult := by
  refine ⟨encodedAs_addImm, fun dr sr1 imm s hlo hhi => ⟨_, exec_addImm (fitsSigned_imm5 hlo hhi) dr sr1 s, ?_⟩⟩
  rw [add_ofInt_eq_ofInt_toInt_add]
  exact s.writeResult_resultWritten dr _

/-- Settles O28: the AND of two words is taken bit by bit. -/
theorem andRegisterResult : Obligations.AndRegisterResult :=
  ⟨encodedAs_andReg, fun dr sr1 sr2 s =>
    ⟨_, _, exec_andReg dr sr1 sr2 s, s.writeResult_resultWritten dr _, fun _ => BitVec.getLsbD_and⟩⟩

/-- Settles O29: as O28, with the sign-extended immediate for the second operand. -/
theorem andImmediateResult : Obligations.AndImmediateResult :=
  ⟨encodedAs_andImm, fun dr sr1 _ s hlo hhi =>
    ⟨_, _, exec_andImm (fitsSigned_imm5 hlo hhi) dr sr1 s, s.writeResult_resultWritten dr _,
      fun _ => BitVec.getLsbD_and⟩⟩

/-- Settles O30: the inverted word, bit by bit and as an integer. -/
theorem notResult : Obligations.NotResult := by
  refine ⟨encodedAs_not, fun dr sr s =>
    ⟨_, _, exec_not dr sr s, s.writeResult_resultWritten dr _, fun i hi => ?_, toInt_not_word _⟩⟩
  rw [BitVec.getLsbD_not, decide_eq_true hi, Bool.true_and]

/-- Settles O31: every form writes a value computed from the state before the write, and DR holds that value. -/
theorem sourcesAreReadBeforeDestinationIsWritten : Obligations.SourcesAreReadBeforeDestinationIsWritten := by
  intro r q imm s hlo hhi
  have hfit : fitsSigned 5 imm := fitsSigned_imm5 hlo hhi
  exact ⟨_, _, _, _, _, _, _,
    exec_addReg r r q s, s.writeResult_reg_same r _, exec_addReg r q r s, s.writeResult_reg_same r _,
    exec_addImm hfit r r s, s.writeResult_reg_same r _,
    exec_andReg r r q s, s.writeResult_reg_same r _, exec_andReg r q r s, s.writeResult_reg_same r _,
    exec_andImm hfit r r s, s.writeResult_reg_same r _,
    exec_not r r s, s.writeResult_reg_same r _⟩

end Sys2Proof.Machine
end

section
/-! LD, LDI, LDR, ST, STI, STR (41_data_movement.md): their encodings, their addresses as wrapped sums, and what one read
or one write does to the state, alone or after the read of a pointer. -/

namespace Sys2Proof.Machine

/-! ### The encodings: the opcode is the only fixed field of these rows (30_encoding.md R101) -/

/-- A form whose every word of the opcode is an encoding. -/
theorem encodedAs_of_opcode {bits : Word} {i : Word → Instr}
    (h : ∀ w, opcodeField w = opcodeField bits → decode w = .instruction (i w)) : encodedAs bits 0xF000 i :=
  fun w hw => h w (opcode_of_masked hw (by decide))

theorem encodedAs_ld : encodedAs 0x2000 0xF000 (fun w => .ld (regField11 w) (pcOffset9Field w)) :=
  encodedAs_of_opcode fun w hop => by rw [decode, decodeWith, hop]; rfl

theorem encodedAs_ldi : encodedAs 0xA000 0xF000 (fun w => .ldi (regField11 w) (pcOffset9Field w)) :=
  encodedAs_of_opcode fun w hop => by rw [decode, decodeWith, hop]; rfl

theorem encodedAs_ldr :
    encodedAs 0x6000 0xF000 (fun w => .ldr (regField11 w) (regField8 w) (offset6Field w)) :=
  encodedAs_of_opcode fun w hop => by rw [decode, decodeWith, hop]; rfl

theorem encodedAs_st : encodedAs 0x3000 0xF000 (fun w => .st (regField11 w) (pcOffset9Field w)) :=
  encodedAs_of_opcode fun w hop => by rw [decode, decodeWith, hop]; rfl

theorem encodedAs_sti : encodedAs 0xB000 0xF000 (fun w => .sti (regField11 w) (pcOffset9Field w)) :=
  encodedAs_of_opcode fun w hop => by rw [decode, decodeWith, hop]; rfl

theorem encodedAs_str :
    encodedAs 0x7000 0xF000 (fun w => .str (regField11 w) (regField8 w) (offset6Field w)) :=
  encodedAs_of_opcode fun w hop => by rw [decode, decodeWith, hop]; rfl

/-! ### Effective addresses as wrapped sums (20_memory.md R67) -/

theorem add_ofInt_eq_wrappedSum (a : Word) (off : Int) : a + BitVec.ofInt 16 off = wrappedSum a off := by
  rw [wrappedSum, BitVec.ofInt_add, BitVec.ofInt_natCast, BitVec.ofNat_toNat, BitVec.setWidth_eq]

theorem State.pcRelative9_eq_wrappedSum (s : State) {off : Int} (hlo : -256 ≤ off) (hhi : off ≤ 255) :
    s.pcRelative9 off = wrappedSum s.pc off := by
  have hfit : fitsSigned 9 off := ⟨hlo, Int.lt_add_one_of_le hhi⟩
  rw [State.pcRelative9, sext9_eq hfit, add_ofInt_eq_wrappedSum]

theorem State.baseOffset_eq_wrappedSum (s : State) (base : Reg) {off : Int} (hlo : -32 ≤ off) (hhi : off ≤ 31) :
    s.baseOffset base off = wrappedSum (s.reg base) off := by
  have hfit : fitsSigned 6 off := ⟨hlo, Int.lt_add_one_of_le hhi⟩
  rw [State.baseOffset, sext6_eq hfit, add_ofInt_eq_wrappedSum]

/-! ### Reads change MAR, MDR and the devices alone -/

theorem State.sameDevices_refl (s : State) : s.sameDevices s := ⟨rfl, rfl, rfl, rfl, rfl, rfl, rfl, rfl⟩

theorem State.writeResult_sameDevices (s : State) (dr : Reg) (v : Word) : s.sameDevices (s.writeResult dr v) :=
  s.sameDevices_refl

/-- `t` is `s` after any number of memory reads, as far as a load or a store made in `t` can tell. -/
structure ReadFrame (s t : State) : Prop where
  regs : t.regs = s.regs
  psr : t.psr = s.psr
  pc : t.pc = s.pc
  mem : t.mem = s.mem
  system : s.sameSystem t
  output : t.output = s.output
  devices : s.platform.deviceMap = .empty → s.sameDevices t

theorem ReadFrame.refl (s : State) : ReadFrame s s where
  regs := rfl
  psr := rfl
  pc := rfl
  mem := rfl
  system := ⟨rfl, rfl, rfl, rfl, rfl⟩
  output := rfl
  devices _ := s.sameDevices_refl

theorem ReadFrame.platform {s t : State} (h : ReadFrame s t) : t.platform = s.platform := by
  obtain ⟨-, -, -, -, hplatform⟩ := h.system
  exact hplatform

theorem ReadFrame.reg {s t : State} (h : ReadFrame s t) (r : Reg) : t.reg r = s.reg r := State.reg_of_regs h.regs r

theorem ReadFrame.peek {s t : State} (h : ReadFrame s t) (a : Word) : t.peek a = s.peek a := State.peek_of_mem h.mem a

/-- One more read keeps the frame. -/
theorem ReadFrame.afterRead {s t : State} (h : ReadFrame s t) (a : Word) : ReadFrame s (t.afterRead a) where
  regs := (t.afterRead_regs a).trans h.regs
  psr := (t.afterRead_psr a).trans h.psr
  pc := (t.afterRead_pc a).trans h.pc
  mem := (t.afterRead_mem a).trans h.mem
  system := by simpa [State.sameSystem] using h.system
  output := (t.afterRead_output a).trans h.output
  devices he := by
    have hempty : t.platform.deviceMap = .empty := by rw [h.platform, he]
    rw [State.afterRead_of_empty hempty]
    exact h.devices he

/-! ### A load and a store, made in the state itself or after earlier reads (41_data_movement.md R161) -/

theorem State.load_reg_same (s : State) (dr : Reg) (ea : Word) : (s.load dr ea).reg dr = s.readWord ea :=
  (s.afterRead ea).writeResult_reg_same dr _

/-- A load is a read, which keeps the frame, and then a result written to DR. -/
theorem ReadFrame.loadDone {s before : State} (h : ReadFrame s before) (dr : Reg) (ea : Word) :
    s.loadDone before (before.load dr ea) dr ea (before.readWord ea) := by
  have hread : ReadFrame s (before.afterRead ea) := h.afterRead ea
  obtain ⟨hdr, hcodes, hpsr, -⟩ := (before.afterRead ea).writeResult_spec dr (before.readWord ea)
  refine ⟨fun r => ?_, hcodes, ?_, hread.pc, hread.peek, hread.system, before.afterRead_mar ea, before.afterRead_mdr ea,
    hread.output, (before.afterRead ea).writeResult_sameDevices dr _, hread.devices⟩
  · rw [← hread.reg r]
    exact hdr r
  · rw [State.samePsrAboveCodes, ← hread.psr]
    exact hpsr

@[simp] theorem State.writeWord_mar (s : State) (a v : Word) : (s.writeWord a v).mar = a := by
  unfold State.writeWord; split <;> rfl

@[simp] theorem State.writeWord_mdr (s : State) (a v : Word) : (s.writeWord a v).mdr = v := by
  unfold State.writeWord; split <;> rfl

/-- A store writes one location when its address is plain memory, and no location when a device owns it. -/
theorem ReadFrame.storeDone {s before : State} (h : ReadFrame s before) (ea v : Word) :
    s.storeDone before (before.writeWord ea v) ea v := by
  refine ⟨fun r => ?_, ?_, ?_, ?_, before.writeWord_mar ea v, before.writeWord_mdr ea v, fun hplain b => ?_,
    fun hdevice b => ?_, State.sameDevices_refl _, fun he => ?_⟩
  · rw [State.writeWord_reg, h.reg]
  · rw [State.writeWord_psr, h.psr]
  · rw [State.writeWord_pc, h.pc]
  · simpa [State.sameSystem] using h.system
  · simp [State.writeWord_peek, h.platform, h.peek, hplain]
  · simp [State.writeWord_peek, h.platform, h.peek, hdevice]
  · have hempty : before.platform.deviceMap = .empty := by rw [h.platform, he]
    rw [State.writeWord_of_empty hempty]
    exact h.devices he

/-! ### The meaning of each instruction -/

theorem exec_ld (dr : Reg) (off : Int) (s : State) : exec (.ld dr off) s = .next (s.load dr (s.pcRelative9 off)) := rfl

theorem exec_ldi (dr : Reg) (off : Int) (s : State) :
    exec (.ldi dr off) s =
      .next ((s.afterRead (s.pcRelative9 off)).load dr (s.readWord (s.pcRelative9 off))) := rfl

theorem exec_ldr (dr base : Reg) (off : Int) (s : State) :
    exec (.ldr dr base off) s = .next (s.load dr (s.baseOffset base off)) := rfl

theorem exec_st (sr : Reg) (off : Int) (s : State) :
    exec (.st sr off) s = .next (s.writeWord (s.pcRelative9 off) (s.reg sr)) := rfl

theorem exec_sti (sr : Reg) (off : Int) (s : State) :
    exec (.sti sr off) s =
      .next ((s.afterRead (s.pcRelative9 off)).writeWord (s.readWord (s.pcRelative9 off)) (s.reg sr)) := rfl

theorem exec_str (sr base : Reg) (off : Int) (s : State) :
    exec (.str sr base off) s = .next (s.writeWord (s.baseOffset base off) (s.reg sr)) := rfl

/-! ### The pointer of LDI and STI with no device attached -/

/-- The second read of LDI answers what the location that the pointer names held at the start. -/
theorem State.readWord_pointer_of_empty {s : State} (h : s.platform.deviceMap = .empty) (ptr : Word) :
    (s.afterRead ptr).readWord (s.readWord ptr) = s.peek (s.peek ptr) := by
  have hafter : (s.afterRead ptr).platform.deviceMap = .empty := by rw [State.afterRead_platform, h]
  rw [State.readWord_of_empty hafter, State.afterRead_peek, State.readWord_of_empty h]

/-- The write of STI goes to the location that the pointer named before it, the pointer's own included. -/
theorem State.onlyWordWritten_pointer_of_empty {s : State} (h : s.platform.deviceMap = .empty) (ptr v : Word) :
    s.onlyWordWritten ((s.afterRead ptr).writeWord (s.readWord ptr) v) (s.peek ptr) v := by
  intro b
  rw [State.writeWord_peek, State.afterRead_platform, State.afterRead_peek, State.readWord_of_empty h, h]
  simp

/-! ### The statements -/

/-- Settles O33: one read, made in the state itself, and its result. -/
theorem ldResult : Obligations.LdResult :=
  ⟨encodedAs_ld, fun dr off s =>
    ⟨_, exec_ld dr off s, (ReadFrame.refl s).loadDone dr _,
      fun hplain => (s.load_reg_same dr _).trans (State.readWord_plain hplain), s.pcRelative9_eq_wrappedSum⟩⟩

/-- Settles O34: the load is made in the state after the read of the pointer. -/
theorem ldiResult : Obligations.LdiResult :=
  ⟨encodedAs_ldi, fun dr off s =>
    ⟨_, exec_ldi dr off s, ((ReadFrame.refl s).afterRead _).loadDone dr _,
      fun hempty => (State.load_reg_same _ dr _).trans (State.readWord_pointer_of_empty hempty _),
      s.pcRelative9_eq_wrappedSum⟩⟩

/-- Settles O35: as O33, at the address computed from the base register's old value. -/
theorem ldrResult : Obligations.LdrResult :=
  ⟨encodedAs_ldr, fun dr base off s =>
    ⟨_, exec_ldr dr base off s, (ReadFrame.refl s).loadDone dr _,
      fun hplain => (s.load_reg_same dr _).trans (State.readWord_plain hplain), s.baseOffset_eq_wrappedSum base⟩⟩

/-- Settles O36: one write, made in the state itself. -/
theorem stResult : Obligations.StResult :=
  ⟨encodedAs_st, fun sr off s =>
    ⟨_, exec_st sr off s, (ReadFrame.refl s).storeDone _ _, s.pcRelative9_eq_wrappedSum⟩⟩

/-- Settles O37: the store is made in the state after the read of the pointer. -/
theorem stiResult : Obligations.StiResult :=
  ⟨encodedAs_sti, fun sr off s =>
    ⟨_, exec_sti sr off s, ((ReadFrame.refl s).afterRead _).storeDone _ _,
      fun hempty => State.onlyWordWritten_pointer_of_empty hempty _ _, s.pcRelative9_eq_wrappedSum⟩⟩

/-- Settles O38: as O36, at the address computed from the base register. -/
theorem strResult : Obligations.StrResult :=
  ⟨encodedAs_str, fun sr base off s =>
    ⟨_, exec_str sr base off s, (ReadFrame.refl s).storeDone _ _, s.baseOffset_eq_wrappedSum base⟩⟩

end Sys2Proof.Machine
end

section
/-! BR and JMP (42_control.md): their encodings, the branch condition, and the PC each leaves. -/

namespace Sys2Proof.Machine

/-! ### The encodings (30_encoding.md R101) -/

theorem encodedAs_br :
    encodedAs 0x0000 0xF000
      (fun w => .br (w.getLsbD 11) (w.getLsbD 10) (w.getLsbD 9) (pcOffset9Field w)) :=
  encodedAs_of_opcode fun w hop => by rw [decode, decodeWith, hop]; rfl

theorem decode_of_opcode_jmp {w : Word} (hop : opcodeField w = 0b1100) :
    decode w =
      checkFixed Config.nonCanonical w (w.extractLsb' 9 3 == 0b000 && w.extractLsb' 0 6 == 0b000000)
        (.jmp (regField8 w)) := by
  rw [decode, decodeWith, hop]; rfl

theorem encodedAs_jmp : encodedAs 0xC000 0xFE3F (fun w => .jmp (regField8 w)) := by
  intro w h
  have hop : opcodeField w = 0b1100 := opcode_of_masked h (by decide)
  have hhigh : w.extractLsb' 9 3 = 0b000 := field_of_masked h (by decide)
  have hlow : w.extractLsb' 0 6 = 0b000000 := field_of_masked h (by decide)
  rw [decode_of_opcode_jmp hop]
  exact checkFixed_of_agree _ w _ (Bool.and_eq_true_iff.2 ⟨beq_iff_eq.2 hhigh, beq_iff_eq.2 hlow⟩)

/-- RET is the encoding of JMP with 111 in the field of the base register (42_control.md R185). -/
theorem decode_ret : decode 0xC1C0 = .instruction (.jmp .r7) := encodedAs_jmp 0xC1C0 (by decide)

/-! ### The meaning of each instruction -/

theorem State.taken_iff (s : State) (n z p : Bool) :
    s.taken n z p = true ↔
      (n = true ∧ s.codeN = true) ∨ (z = true ∧ s.codeZ = true) ∨ (p = true ∧ s.codeP = true) := by
  simp only [State.taken, Bool.or_eq_true_iff, Bool.and_eq_true_iff, or_assoc]

/-- Taken or not, BR writes the PC alone (42_control.md R180). -/
theorem exec_br (n z p : Bool) (off : Int) (s : State) :
    exec (.br n z p off) s =
      .next { s with pc := if s.taken n z p then s.pcRelative9 off else s.pc } := by
  change execBr n z p off s = _
  rw [execBr]
  split <;> rfl

theorem exec_jmp (base : Reg) (s : State) : exec (.jmp base) s = .next { s with pc := s.reg base } := rfl

/-! ### The statements -/

/-- Settles O40: the branch condition is that a tested code is set, and the target is the wrapped sum. -/
theorem brResult : Obligations.BrResult :=
  ⟨encodedAs_br, fun n z p off s hlo hhi =>
    ⟨_, exec_br n z p off s, rfl, if_congr (s.taken_iff n z p) (s.pcRelative9_eq_wrappedSum hlo hhi) rfl⟩⟩

/-- Settles O42: RET inherits from JMP that the PC alone is written. -/
theorem jmpAndRetResult : Obligations.JmpAndRetResult :=
  ⟨encodedAs_jmp, exec_jmp, decode_ret, fun s =>
    ⟨_, exec_jmp .r7 s, rfl, rfl, fun r => State.reg_of_regs rfl r⟩⟩

end Sys2Proof.Machine
end

section
/-! The privilege mode (60_exceptions.md R210): the ways one instruction can leave PSR[15], and the two directions in
which a step can change it. -/

namespace Sys2Proof.Machine

/-! ### What one instruction can do to the mode -/

/-- The mode is a function of the PSR alone. -/
theorem State.userMode_of_psr {s t : State} (h : t.psr = s.psr) : t.userMode = s.userMode := by
  simp only [State.userMode, h]

@[simp] theorem State.takeInterrupt_userMode (s : State) : s.takeInterrupt.userMode = false :=
  (State.setPriority_userMode _ _).trans (s.enter_userMode _ _)

/-- The ways the instruction `i`, executed in `s`, can leave the mode of the next state `t`. -/
inductive ModeEffect (s : State) (i : Instr) (t : State) : Prop where
  /-- The mode is as it was. -/
  | kept (h : t.userMode = s.userMode)
  /-- An exception is taken (60_exceptions.md R212, R213). -/
  | excepted (cause : ExceptionCause) (ht : t = s.takeException cause)
  /-- RTI in Supervisor mode (42_control.md R194). -/
  | returned (hi : i = .rti) (hu : s.userMode = false) (ht : t = s.returnFromInterrupt)

theorem execRti_modeEffect {s t : State} (h : execRti s = .next t) : ModeEffect s .rti t := by
  rcases execRti_next h with ⟨-, ht⟩ | ⟨hu, ht⟩
  · exact .excepted _ ht
  · exact .returned rfl hu ht

theorem execUnusedOpcode_modeEffect {anyBits : BitVec 12} {s t : State} (h : execUnusedOpcode anyBits s = .next t) :
    ModeEffect s (.unusedOpcode anyBits) t := by
  obtain ⟨-, ht⟩ := State.raiseException_next h
  exact .excepted _ ht

/-- Everything an instruction that completes can do to the mode: writing the condition codes does not reach PSR[15],
which leaves the two exceptions and the return. -/
theorem exec_modeEffect {i : Instr} {s t : State} (h : exec i s = .next t) : ModeEffect s i t := by
  cases exec_psrEffect h with
  | kept hp => exact .kept (State.userMode_of_psr hp)
  | coded c hp => exact .kept ((State.userMode_of_psr hp).trans (s.setCode_userMode c))
  | excepted hi _ =>
    rcases hi with ⟨rfl, -⟩ | ⟨anyBits, rfl⟩
    · exact execRti_modeEffect h
    · exact execUnusedOpcode_modeEffect h
  | popped hi _ _ =>
    subst hi
    exact execRti_modeEffect h

/-! ### The two directions of a change -/

/-- From User to Supervisor mode only an entry leads: a return is not executed in User mode. -/
theorem step_toSupervisor {s t : State} (h : step s = .next t) (hs : s.userMode = true) (ht : t.userMode = false) :
    t = s.takeInterrupt ∨ t = s.afterFetch.takeException .privilegeModeViolation ∨
      t = s.afterFetch.takeException .illegalOpcode := by
  obtain ⟨-, -, ⟨-, hint⟩ | ⟨-, i, -, he⟩⟩ := step_next_cases h
  · exact .inl hint
  · cases exec_modeEffect he with
    | kept hk => simp [hs, ht] at hk
    | excepted cause hx =>
      cases cause with
      | privilegeModeViolation => exact .inr (.inl hx)
      | illegalOpcode => exact .inr (.inr hx)
    | returned _ hu _ => simp [hs] at hu

/-- From Supervisor to User mode only a return leads: every entry ends in Supervisor mode. -/
theorem step_toUser {s t : State} (h : step s = .next t) (hs : s.userMode = false) (ht : t.userMode = true) :
    decode (s.readWord s.pc) = .instruction .rti ∧ t = s.afterFetch.returnFromInterrupt ∧
      t.psr = s.afterFetch.afterPop.popValue := by
  obtain ⟨-, -, ⟨-, rfl⟩ | ⟨-, i, hd, he⟩⟩ := step_next_cases h
  · simp at ht
  · cases exec_modeEffect he with
    | kept hk => simp [hs, ht] at hk
    | excepted cause hx => simp [hx] at ht
    | returned hi _ hr =>
      subst hi hr
      exact ⟨hd, rfl, s.afterFetch.returnFromInterrupt_psr⟩

/-! ### The statement -/

/-- Settles O21: an instruction keeps PSR[15], takes an exception or returns; entries lead only to Supervisor mode and
the return starts only there. -/
theorem modeChangesOnlyByEntryAndRti : Obligations.ModeChangesOnlyByEntryAndRti :=
  ⟨fun _ => rfl, State.enter_userMode, fun _ _ h => ⟨step_toSupervisor h, step_toUser h⟩⟩

end Sys2Proof.Machine
end

section
/-! The encoder against the decoder (30_encoding.md R91, R100 to R104, R115, R116): fields of a word that is put together
from fields, the rows of the opcode table, and the one walk through the decoder from which the round trips follow. -/

namespace Sys2Proof.Machine

open Sys2Proof.Laws

/-! ### The encodings of the forms outside arithmetic, data movement and branches (30_encoding.md R101, R102) -/

theorem decode_of_opcode_jsr {w : Word} (hop : opcodeField w = 0b0100) :
    decode w =
      if w.getLsbD 11 then .instruction (.jsr (pcOffset11Field w))
      else checkFixed Config.nonCanonical w (w.extractLsb' 9 2 == 0b00 && w.extractLsb' 0 6 == 0b000000)
        (.jsrr (regField8 w)) := by
  rw [decode, decodeWith, hop]; rfl

theorem encodedAs_jsr : encodedAs 0x4800 0xF800 (fun w => .jsr (pcOffset11Field w)) := by
  intro w h
  have hop : opcodeField w = 0b0100 := opcode_of_masked h (by decide)
  have hmode : w.getLsbD 11 = true := bit_of_masked h (by decide)
  rw [decode_of_opcode_jsr hop, if_pos hmode]

theorem encodedAs_jsrr : encodedAs 0x4000 0xFE3F (fun w => .jsrr (regField8 w)) := by
  intro w h
  have hop : opcodeField w = 0b0100 := opcode_of_masked h (by decide)
  have hmode : w.getLsbD 11 = false := bit_of_masked h (by decide)
  have hhigh : w.extractLsb' 9 2 = 0b00 := field_of_masked h (by decide)
  have hlow : w.extractLsb' 0 6 = 0b000000 := field_of_masked h (by decide)
  rw [decode_of_opcode_jsr hop, hmode, if_neg Bool.false_ne_true]
  exact checkFixed_of_agree _ w _ (Bool.and_eq_true_iff.2 ⟨beq_iff_eq.2 hhigh, beq_iff_eq.2 hlow⟩)

theorem encodedAs_rti : encodedAs 0x8000 0xFFFF (fun _ => .rti) := by
  intro w h
  have hop : opcodeField w = 0b1000 := opcode_of_masked h (by decide)
  have hlow : w.extractLsb' 0 12 = 0 := field_of_masked h (by decide)
  have hdecode : decode w = checkFixed Config.nonCanonical w (w.extractLsb' 0 12 == 0) .rti := by
    rw [decode, decodeWith, hop]; rfl
  exact hdecode.trans (checkFixed_of_agree _ w _ (beq_iff_eq.2 hlow))

theorem encodedAs_unusedOpcode : encodedAs 0xD000 0xF000 (fun w => .unusedOpcode (w.extractLsb' 0 12)) :=
  encodedAs_of_opcode fun w hop => by rw [decode, decodeWith, hop]; rfl

theorem encodedAs_lea : encodedAs 0xE000 0xF000 (fun w => .lea (regField11 w) (pcOffset9Field w)) :=
  encodedAs_of_opcode fun w hop => by rw [decode, decodeWith, hop]; rfl

theorem encodedAs_trap : encodedAs 0xF000 0xFF00 (fun w => .trap (trapVect8Field w)) := by
  intro w h
  have hop : opcodeField w = 0b1111 := opcode_of_masked h (by decide)
  have hfixed : w.extractLsb' 8 4 = 0b0000 := field_of_masked h (by decide)
  have hdecode : decode w = checkFixed Config.nonCanonical w (w.extractLsb' 8 4 == 0b0000) (.trap (trapVect8Field w)) := by
    rw [decode, decodeWith, hop]; rfl
  exact hdecode.trans (checkFixed_of_agree _ w _ (beq_iff_eq.2 hfixed))

/-! ### Fields of a word that is put together from fields -/

theorem getLsbD_fieldAt {width : Nat} (lo : Nat) (v : BitVec width) (i : Nat) :
    (fieldAt lo v).getLsbD i = (decide (i < 16) && decide (lo ≤ i) && v.getLsbD (i - lo)) := by
  have hshift : i < 16 → i - lo < 16 := (Nat.sub_le i lo).trans_lt
  simp only [fieldAt, BitVec.getLsbD_shiftLeft, BitVec.getLsbD_setWidth]
  by_cases hi : i < 16 <;> by_cases hlo : i < lo <;> simp [hi, hlo, hshift, Nat.le_of_not_lt]

/-- A field of a word reads back what was put there. -/
@[simp] theorem extractLsb'_fieldAt_same {width lo : Nat} (v : BitVec width) (h : lo + width ≤ 16) :
    (fieldAt lo v).extractLsb' lo width = v := by
  apply BitVec.eq_of_getLsbD_eq
  intro i hi
  have hlt : lo + i < 16 := by omega
  simp only [BitVec.getLsbD_extractLsb', getLsbD_fieldAt, hi, hlt, Nat.le_add_right, Nat.add_sub_cancel_left,
    decide_true, Bool.true_and]

/-- A field of a word does not see what was put beside it. -/
@[simp] theorem extractLsb'_fieldAt_apart {width lo width' lo' : Nat} (v : BitVec width)
    (h : lo + width ≤ lo' ∨ lo' + width' ≤ lo) : (fieldAt lo v).extractLsb' lo' width' = 0#width' := by
  apply BitVec.eq_of_getLsbD_eq
  intro i hi
  simp only [BitVec.getLsbD_extractLsb', getLsbD_fieldAt, BitVec.getLsbD_zero]
  rcases h with h | h
  · have hge : width ≤ lo' + i - lo := by omega
    simp [BitVec.getLsbD_of_ge v _ hge]
  · have hlt : ¬ lo ≤ lo' + i := by omega
    simp [hlt]

/-- Two adjacent fields of a word are one field of it. -/
@[simp] theorem fieldAt_or_adjacent (w : Word) {hi lo m n : Nat} (h : hi = lo + n) :
    fieldAt hi (w.extractLsb' hi m) ||| fieldAt lo (w.extractLsb' lo n) = fieldAt lo (w.extractLsb' lo (n + m)) := by
  subst h
  apply BitVec.eq_of_getLsbD_eq
  intro i hi
  simp only [BitVec.getLsbD_or, getLsbD_fieldAt, BitVec.getLsbD_extractLsb', hi]
  by_cases hbelow : lo + n ≤ i
  · have hadd : lo + (i - lo) = i ∧ lo + n + (i - (lo + n)) = i := by omega
    have hin : i - (lo + n) < m ↔ i - lo < n + m := by omega
    have hout : ¬ i - lo < n := by omega
    have hlo : lo ≤ i := by omega
    simp [hbelow, hadd, hin, hout, hlo]
  · have hin : lo ≤ i → i - lo < n ∧ i - lo < n + m := by omega
    by_cases hlo : lo ≤ i <;> simp [hbelow, hlo, hin]

@[simp] theorem fieldAt_zero_word (w : Word) : fieldAt 0 w = w := by
  simp [fieldAt]


/-! ### The rows of the opcode table: the word of an instruction gives its operands back -/

/-- The instruction of the form of `i` whose operands are the fields of a word. -/
def readForm : Instr → Word → Instr
  | .br _ _ _ _ => fun w => .br (w.getLsbD 11) (w.getLsbD 10) (w.getLsbD 9) (pcOffset9Field w)
  | .addReg _ _ _ => fun w => .addReg (regField11 w) (regField8 w) (regField2 w)
  | .addImm _ _ _ => fun w => .addImm (regField11 w) (regField8 w) (imm5Field w)
  | .ld _ _ => fun w => .ld (regField11 w) (pcOffset9Field w)
  | .st _ _ => fun w => .st (regField11 w) (pcOffset9Field w)
  | .jsr _ => fun w => .jsr (pcOffset11Field w)
  | .jsrr _ => fun w => .jsrr (regField8 w)
  | .andReg _ _ _ => fun w => .andReg (regField11 w) (regField8 w) (regField2 w)
  | .andImm _ _ _ => fun w => .andImm (regField11 w) (regField8 w) (imm5Field w)
  | .ldr _ _ _ => fun w => .ldr (regField11 w) (regField8 w) (offset6Field w)
  | .str _ _ _ => fun w => .str (regField11 w) (regField8 w) (offset6Field w)
  | .rti => fun _ => .rti
  | .not _ _ => fun w => .not (regField11 w) (regField8 w)
  | .ldi _ _ => fun w => .ldi (regField11 w) (pcOffset9Field w)
  | .sti _ _ => fun w => .sti (regField11 w) (pcOffset9Field w)
  | .jmp _ => fun w => .jmp (regField8 w)
  | .unusedOpcode _ => fun w => .unusedOpcode (w.extractLsb' 0 12)
  | .lea _ _ => fun w => .lea (regField11 w) (pcOffset9Field w)
  | .trap _ => fun w => .trap (trapVect8Field w)

/-- Every word of a form's row decodes to the form's instruction with the word's fields. -/
theorem encodedAs_readForm (i : Instr) :
    encodedAs (StrictMatch.rowOf i).1 (StrictMatch.rowOf i).2 (readForm i) := by
  cases i with
  | br => exact encodedAs_br
  | addReg => exact encodedAs_addReg
  | addImm => exact encodedAs_addImm
  | ld => exact encodedAs_ld
  | st => exact encodedAs_st
  | jsr => exact encodedAs_jsr
  | jsrr => exact encodedAs_jsrr
  | andReg => exact encodedAs_andReg
  | andImm => exact encodedAs_andImm
  | ldr => exact encodedAs_ldr
  | str => exact encodedAs_str
  | rti => exact encodedAs_rti
  | not => exact encodedAs_not
  | ldi => exact encodedAs_ldi
  | sti => exact encodedAs_sti
  | jmp => exact encodedAs_jmp
  | unusedOpcode => exact encodedAs_unusedOpcode
  | lea => exact encodedAs_lea
  | trap => exact encodedAs_trap

/-- The encoder puts every instruction into its form's row. -/
theorem encode_masked (i : Instr) : encode i &&& (StrictMatch.rowOf i).2 = (StrictMatch.rowOf i).1 := by
  cases i with
  | br n z p off => exact StrictMatch.br n z p off
  | addReg dr sr1 sr2 => exact StrictMatch.addReg dr sr1 sr2
  | addImm dr sr1 imm => exact StrictMatch.addImm dr sr1 imm
  | ld dr off => exact StrictMatch.ld dr off
  | st sr off => exact StrictMatch.st sr off
  | jsr off => exact StrictMatch.jsr off
  | jsrr base => exact StrictMatch.jsrr base
  | andReg dr sr1 sr2 => exact StrictMatch.andReg dr sr1 sr2
  | andImm dr sr1 imm => exact StrictMatch.andImm dr sr1 imm
  | ldr dr base off => exact StrictMatch.ldr dr base off
  | str sr base off => exact StrictMatch.str sr base off
  | rti => exact StrictMatch.rti
  | not dr sr => exact StrictMatch.not dr sr
  | ldi dr off => exact StrictMatch.ldi dr off
  | sti sr off => exact StrictMatch.sti sr off
  | jmp base => exact StrictMatch.jmp base
  | unusedOpcode anyBits => exact StrictMatch.unusedOpcode anyBits
  | lea dr off => exact StrictMatch.lea dr off
  | trap vector => exact StrictMatch.trap vector

/-- A number that fits its field is what the field reads as (30_encoding.md R93 to R96). -/
theorem toInt_ofInt_of_fits {width : Nat} (hw : 0 < width) {v : Int} (h : fitsSigned width v) :
    (BitVec.ofInt width v).toInt = v :=
  BitVec.toInt_ofInt_eq_self hw h.1 h.2

theorem toNat_ofNat_of_fits {v : Nat} (h : fitsUnsigned 8 v) : (BitVec.ofNat 8 v).toNat = v :=
  Nat.mod_eq_of_lt h

/-- The fields of the word of a well-formed instruction are its operands. -/
theorem readForm_encode {i : Instr} (h : i.WellFormed) : readForm i (encode i) = i := by
  cases i with
  | br n z p off =>
    have hoff : (BitVec.ofInt 9 off).toInt = off := toInt_ofInt_of_fits (by decide) (of_decide_eq_true h)
    have hfield : pcOffset9Field (encode (.br n z p off)) = off := by
      simp [encode, pcOffset9Field, BitVec.extractLsb'_or, hoff]
    have hn : (encode (.br n z p off)).getLsbD 11 = n := by simp [encode, fieldAt]
    have hz : (encode (.br n z p off)).getLsbD 10 = z := by simp [encode, fieldAt]
    have hp : (encode (.br n z p off)).getLsbD 9 = p := by simp [encode, fieldAt]
    simp only [readForm, hfield, hn, hz, hp]
  | ld dr off | st sr off | ldi dr off | sti sr off | lea dr off =>
    have hoff : (BitVec.ofInt 9 off).toInt = off := toInt_ofInt_of_fits (by decide) (of_decide_eq_true h)
    simp [readForm, encode, regField11, pcOffset9Field, BitVec.extractLsb'_or, hoff]
  | addImm dr sr1 imm | andImm dr sr1 imm =>
    have himm : (BitVec.ofInt 5 imm).toInt = imm := toInt_ofInt_of_fits (by decide) (of_decide_eq_true h)
    simp [readForm, encode, regField11, regField8, imm5Field, BitVec.extractLsb'_or, himm]
  | ldr dr base off | str sr base off =>
    have hoff : (BitVec.ofInt 6 off).toInt = off := toInt_ofInt_of_fits (by decide) (of_decide_eq_true h)
    simp [readForm, encode, regField11, regField8, offset6Field, BitVec.extractLsb'_or, hoff]
  | jsr off =>
    have hoff : (BitVec.ofInt 11 off).toInt = off := toInt_ofInt_of_fits (by decide) (of_decide_eq_true h)
    simp [readForm, encode, pcOffset11Field, BitVec.extractLsb'_or, hoff]
  | trap vector =>
    have hvector : (BitVec.ofNat 8 vector).toNat = vector := toNat_ofNat_of_fits (of_decide_eq_true h)
    simp [readForm, encode, trapVect8Field, BitVec.extractLsb'_or, hvector]
  | addReg | andReg | jsrr | not | jmp | rti | unusedOpcode =>
    simp [readForm, encode, regField11, regField8, regField2, BitVec.extractLsb'_or]

/-! ### The operands read from a word, put back into their fields (30_encoding.md R92 to R98) -/

@[simp] theorem toBits_regField11 (w : Word) : (regField11 w).toBits = w.extractLsb' 9 3 := reg_toBits_ofBits _
@[simp] theorem toBits_regField8 (w : Word) : (regField8 w).toBits = w.extractLsb' 6 3 := reg_toBits_ofBits _
@[simp] theorem toBits_regField2 (w : Word) : (regField2 w).toBits = w.extractLsb' 0 3 := reg_toBits_ofBits _

@[simp] theorem ofInt_imm5Field (w : Word) : BitVec.ofInt 5 (imm5Field w) = w.extractLsb' 0 5 := BitVec.ofInt_toInt
@[simp] theorem ofInt_offset6Field (w : Word) : BitVec.ofInt 6 (offset6Field w) = w.extractLsb' 0 6 := BitVec.ofInt_toInt
@[simp] theorem ofInt_pcOffset9Field (w : Word) : BitVec.ofInt 9 (pcOffset9Field w) = w.extractLsb' 0 9 :=
  BitVec.ofInt_toInt
@[simp] theorem ofInt_pcOffset11Field (w : Word) : BitVec.ofInt 11 (pcOffset11Field w) = w.extractLsb' 0 11 :=
  BitVec.ofInt_toInt

@[simp] theorem ofNat_trapVect8Field (w : Word) : BitVec.ofNat 8 (trapVect8Field w) = w.extractLsb' 0 8 := by
  rw [trapVect8Field, BitVec.ofNat_toNat, BitVec.setWidth_eq]

/-- A two's complement field holds a number that fits it. -/
theorem fitsSigned_toInt {width : Nat} (b : BitVec width) : fitsSigned width b.toInt := ⟨b.le_toInt, b.toInt_lt⟩

theorem extractLsb'_one (w : Word) (lo : Nat) : w.extractLsb' lo 1 = BitVec.ofBool (w.getLsbD lo) := by
  apply BitVec.eq_of_getLsbD_eq
  intro i hi
  interval_cases i
  simp

/-- The mode bit of ADD and AND in register mode and the two fixed bits beside it, as one field. -/
theorem extractLsb'_mode_zero {w : Word} (hmode : w.getLsbD 5 = false) (hfixed : w.extractLsb' 3 2 = 0b00#2) :
    w.extractLsb' 3 3 = 0b000#3 := by
  apply BitVec.eq_of_getLsbD_eq
  intro i hi
  by_cases hlow : i < 2
  · simpa [hlow, hi] using congrArg (BitVec.getLsbD · i) hfixed
  · obtain rfl : i = 2 := by omega
    simpa using hmode

/-! ### What the decoder reads from a word, form by form (30_encoding.md R100, R104) -/

/-- `i` is what the decoder reads from `w`, and `agree` says whether the fixed bits of `w` are those of its encoding. -/
structure ReadsAs (w : Word) (i : Instr) (agree : Bool) : Prop where
  decodes : ∀ policy, decodeWith policy w = checkFixed policy w agree i
  wellFormed : i.WellFormed
  encodes : agree = true → encode i = w

/-! #### Forms whose opcode is the only fixed field. -/

theorem readsAs_br {w : Word} (hop : opcodeField w = 0b0000#4) :
    ReadsAs w (.br (w.getLsbD 11) (w.getLsbD 10) (w.getLsbD 9) (pcOffset9Field w)) true where
  decodes policy := by rw [decodeWith, hop]; rfl
  wellFormed := decide_eq_true (fitsSigned_toInt _)
  encodes _ := by
    simp only [encode, ← hop, opcodeField, ← extractLsb'_one]
    simp

theorem readsAs_ld {w : Word} (hop : opcodeField w = 0b0010#4) :
    ReadsAs w (.ld (regField11 w) (pcOffset9Field w)) true where
  decodes policy := by rw [decodeWith, hop]; rfl
  wellFormed := decide_eq_true (fitsSigned_toInt _)
  encodes _ := by simp [encode, ← hop, opcodeField]

theorem readsAs_st {w : Word} (hop : opcodeField w = 0b0011#4) :
    ReadsAs w (.st (regField11 w) (pcOffset9Field w)) true where
  decodes policy := by rw [decodeWith, hop]; rfl
  wellFormed := decide_eq_true (fitsSigned_toInt _)
  encodes _ := by simp [encode, ← hop, opcodeField]

theorem readsAs_ldr {w : Word} (hop : opcodeField w = 0b0110#4) :
    ReadsAs w (.ldr (regField11 w) (regField8 w) (offset6Field w)) true where
  decodes policy := by rw [decodeWith, hop]; rfl
  wellFormed := decide_eq_true (fitsSigned_toInt _)
  encodes _ := by simp [encode, ← hop, opcodeField]

theorem readsAs_str {w : Word} (hop : opcodeField w = 0b0111#4) :
    ReadsAs w (.str (regField11 w) (regField8 w) (offset6Field w)) true where
  decodes policy := by rw [decodeWith, hop]; rfl
  wellFormed := decide_eq_true (fitsSigned_toInt _)
  encodes _ := by simp [encode, ← hop, opcodeField]

theorem readsAs_ldi {w : Word} (hop : opcodeField w = 0b1010#4) :
    ReadsAs w (.ldi (regField11 w) (pcOffset9Field w)) true where
  decodes policy := by rw [decodeWith, hop]; rfl
  wellFormed := decide_eq_true (fitsSigned_toInt _)
  encodes _ := by simp [encode, ← hop, opcodeField]

theorem readsAs_sti {w : Word} (hop : opcodeField w = 0b1011#4) :
    ReadsAs w (.sti (regField11 w) (pcOffset9Field w)) true where
  decodes policy := by rw [decodeWith, hop]; rfl
  wellFormed := decide_eq_true (fitsSigned_toInt _)
  encodes _ := by simp [encode, ← hop, opcodeField]

theorem readsAs_unusedOpcode {w : Word} (hop : opcodeField w = 0b1101#4) :
    ReadsAs w (.unusedOpcode (w.extractLsb' 0 12)) true where
  decodes policy := by rw [decodeWith, hop]; rfl
  wellFormed := rfl
  encodes _ := by simp [encode, ← hop, opcodeField]

theorem readsAs_lea {w : Word} (hop : opcodeField w = 0b1110#4) :
    ReadsAs w (.lea (regField11 w) (pcOffset9Field w)) true where
  decodes policy := by rw [decodeWith, hop]; rfl
  wellFormed := decide_eq_true (fitsSigned_toInt _)
  encodes _ := by simp [encode, ← hop, opcodeField]

/-! #### Forms with a mode bit. -/

theorem readsAs_addImm {w : Word} (hop : opcodeField w = 0b0001#4) (hmode : w.getLsbD 5 = true) :
    ReadsAs w (.addImm (regField11 w) (regField8 w) (imm5Field w)) true where
  decodes policy := by rw [decodeWith, hop]; simp only [hmode]; rfl
  wellFormed := decide_eq_true (fitsSigned_toInt _)
  encodes _ := by
    have hbit : w.extractLsb' 5 1 = 1#1 := by rw [extractLsb'_one, hmode]; rfl
    simp [encode, ← hop, opcodeField, ← hbit]

theorem readsAs_addReg {w : Word} (hop : opcodeField w = 0b0001#4) (hmode : w.getLsbD 5 = false) :
    ReadsAs w (.addReg (regField11 w) (regField8 w) (regField2 w)) (w.extractLsb' 3 2 == 0b00) where
  decodes policy := by rw [decodeWith, hop]; simp only [hmode]; rfl
  wellFormed := rfl
  encodes hagree := by
    have hfixed : w.extractLsb' 3 3 = 0b000#3 := extractLsb'_mode_zero hmode (eq_of_beq hagree)
    simp [encode, ← hop, opcodeField, ← hfixed]

theorem readsAs_andImm {w : Word} (hop : opcodeField w = 0b0101#4) (hmode : w.getLsbD 5 = true) :
    ReadsAs w (.andImm (regField11 w) (regField8 w) (imm5Field w)) true where
  decodes policy := by rw [decodeWith, hop]; simp only [hmode]; rfl
  wellFormed := decide_eq_true (fitsSigned_toInt _)
  encodes _ := by
    have hbit : w.extractLsb' 5 1 = 1#1 := by rw [extractLsb'_one, hmode]; rfl
    simp [encode, ← hop, opcodeField, ← hbit]

theorem readsAs_andReg {w : Word} (hop : opcodeField w = 0b0101#4) (hmode : w.getLsbD 5 = false) :
    ReadsAs w (.andReg (regField11 w) (regField8 w) (regField2 w)) (w.extractLsb' 3 2 == 0b00) where
  decodes policy := by rw [decodeWith, hop]; simp only [hmode]; rfl
  wellFormed := rfl
  encodes hagree := by
    have hfixed : w.extractLsb' 3 3 = 0b000#3 := extractLsb'_mode_zero hmode (eq_of_beq hagree)
    simp [encode, ← hop, opcodeField, ← hfixed]

theorem readsAs_jsr {w : Word} (hop : opcodeField w = 0b0100#4) (hmode : w.getLsbD 11 = true) :
    ReadsAs w (.jsr (pcOffset11Field w)) true where
  decodes policy := by rw [decodeWith, hop]; simp only [hmode]; rfl
  wellFormed := decide_eq_true (fitsSigned_toInt _)
  encodes _ := by
    have hbit : w.extractLsb' 11 1 = 1#1 := by rw [extractLsb'_one, hmode]; rfl
    simp [encode, ← hop, opcodeField, ← hbit]

theorem readsAs_jsrr {w : Word} (hop : opcodeField w = 0b0100#4) (hmode : w.getLsbD 11 = false) :
    ReadsAs w (.jsrr (regField8 w)) (w.extractLsb' 9 2 == 0b00 && w.extractLsb' 0 6 == 0b000000) where
  decodes policy := by rw [decodeWith, hop]; simp only [hmode]; rfl
  wellFormed := rfl
  encodes hagree := by
    obtain ⟨hhigh, hlow⟩ := Bool.and_eq_true_iff.1 hagree
    have hbit : w.extractLsb' 11 1 = 0#1 := by rw [extractLsb'_one, hmode]; rfl
    have hbits10 : w.extractLsb' 9 2 = 0#2 := eq_of_beq hhigh
    have hbits5 : w.extractLsb' 0 6 = 0#6 := eq_of_beq hlow
    simp [encode, ← hop, opcodeField, ← hbit, ← hbits10, ← hbits5]

/-! #### Forms with fixed bits beside the opcode. -/

theorem readsAs_rti {w : Word} (hop : opcodeField w = 0b1000#4) :
    ReadsAs w (.rti) (w.extractLsb' 0 12 == 0) where
  decodes policy := by rw [decodeWith, hop]; rfl
  wellFormed := rfl
  encodes hagree := by
    have hfixed : w.extractLsb' 0 12 = 0#12 := eq_of_beq hagree
    simp [encode, ← hop, opcodeField, ← hfixed]

theorem readsAs_not {w : Word} (hop : opcodeField w = 0b1001#4) :
    ReadsAs w (.not (regField11 w) (regField8 w)) (w.extractLsb' 0 6 == 0b111111) where
  decodes policy := by rw [decodeWith, hop]; rfl
  wellFormed := rfl
  encodes hagree := by
    have hfixed : w.extractLsb' 0 6 = 0b111111#6 := eq_of_beq hagree
    simp [encode, ← hop, opcodeField, ← hfixed]

theorem readsAs_jmp {w : Word} (hop : opcodeField w = 0b1100#4) :
    ReadsAs w (.jmp (regField8 w)) (w.extractLsb' 9 3 == 0b000 && w.extractLsb' 0 6 == 0b000000) where
  decodes policy := by rw [decodeWith, hop]; rfl
  wellFormed := rfl
  encodes hagree := by
    obtain ⟨hhigh, hlow⟩ := Bool.and_eq_true_iff.1 hagree
    have hbits11 : w.extractLsb' 9 3 = 0#3 := eq_of_beq hhigh
    have hbits5 : w.extractLsb' 0 6 = 0#6 := eq_of_beq hlow
    simp [encode, ← hop, opcodeField, ← hbits11, ← hbits5]

theorem readsAs_trap {w : Word} (hop : opcodeField w = 0b1111#4) :
    ReadsAs w (.trap (trapVect8Field w)) (w.extractLsb' 8 4 == 0b0000) where
  decodes policy := by rw [decodeWith, hop]; rfl
  wellFormed := decide_eq_true (BitVec.isLt _)
  encodes hagree := by
    have hfixed : w.extractLsb' 8 4 = 0#4 := eq_of_beq hagree
    simp [encode, ← hop, opcodeField, ← hfixed]

/-- The walk through the decoder: every opcode is one of the table's, and its mode bit picks the form. -/
theorem exists_readsAs (w : Word) : ∃ i agree, ReadsAs w i agree := by
  have hop : opcodeField w = BitVec.ofNat 4 (opcodeField w).toNat := by simp
  have hlt : (opcodeField w).toNat < 16 := (opcodeField w).isLt
  interval_cases (opcodeField w).toNat
  · exact ⟨_, _, readsAs_br hop⟩
  · cases hmode : w.getLsbD 5 with
    | true => exact ⟨_, _, readsAs_addImm hop hmode⟩
    | false => exact ⟨_, _, readsAs_addReg hop hmode⟩
  · exact ⟨_, _, readsAs_ld hop⟩
  · exact ⟨_, _, readsAs_st hop⟩
  · cases hmode : w.getLsbD 11 with
    | true => exact ⟨_, _, readsAs_jsr hop hmode⟩
    | false => exact ⟨_, _, readsAs_jsrr hop hmode⟩
  · cases hmode : w.getLsbD 5 with
    | true => exact ⟨_, _, readsAs_andImm hop hmode⟩
    | false => exact ⟨_, _, readsAs_andReg hop hmode⟩
  · exact ⟨_, _, readsAs_ldr hop⟩
  · exact ⟨_, _, readsAs_str hop⟩
  · exact ⟨_, _, readsAs_rti hop⟩
  · exact ⟨_, _, readsAs_not hop⟩
  · exact ⟨_, _, readsAs_ldi hop⟩
  · exact ⟨_, _, readsAs_sti hop⟩
  · exact ⟨_, _, readsAs_jmp hop⟩
  · exact ⟨_, _, readsAs_unusedOpcode hop⟩
  · exact ⟨_, _, readsAs_lea hop⟩
  · exact ⟨_, _, readsAs_trap hop⟩

/-! ### The decoder and the rows -/

theorem decode_of_readsAs {w : Word} {i : Instr} {agree : Bool} (h : ReadsAs w i agree) :
    decode w = if agree then .instruction i else .nonCanonical w := by
  rw [decode, h.decodes]
  cases agree <;> rfl

/-- What decodes is well-formed and was read from its own encoding (30_encoding.md R104). -/
theorem encode_of_decode {w : Word} {i : Instr} (h : decode w = .instruction i) : i.WellFormed ∧ encode i = w := by
  obtain ⟨j, agree, hj⟩ := exists_readsAs w
  rw [decode_of_readsAs hj] at h
  cases agree with
  | true =>
    cases h
    exact ⟨hj.wellFormed, hj.encodes rfl⟩
  | false => cases h

/-- A refusal names the word refused. -/
theorem decode_cases (w : Word) : (∃ i, decode w = .instruction i) ∨ decode w = .nonCanonical w := by
  obtain ⟨i, agree, h⟩ := exists_readsAs w
  rw [decode_of_readsAs h]
  cases agree with
  | true => exact .inl ⟨i, rfl⟩
  | false => exact .inr rfl

theorem rowOf_mem_strictRows (i : Instr) : StrictMatch.rowOf i ∈ strictRows := by
  cases i <;> simp [StrictMatch.rowOf, strictRows]

/-- Every row of the table is the row of a form. -/
theorem exists_rowOf {row : Word × Word} (h : row ∈ strictRows) : ∃ i, StrictMatch.rowOf i = row := by
  simp only [strictRows, List.mem_cons, List.not_mem_nil, or_false] at h
  rcases h with rfl | rfl | rfl | rfl | rfl | rfl | rfl | rfl | rfl | rfl | rfl | rfl | rfl | rfl | rfl | rfl | rfl |
    rfl | rfl
  exacts [⟨.br true true true 0, rfl⟩, ⟨.addReg .r0 .r0 .r0, rfl⟩, ⟨.addImm .r0 .r0 0, rfl⟩, ⟨.ld .r0 0, rfl⟩,
    ⟨.st .r0 0, rfl⟩, ⟨.jsr 0, rfl⟩, ⟨.jsrr .r0, rfl⟩, ⟨.andReg .r0 .r0 .r0, rfl⟩, ⟨.andImm .r0 .r0 0, rfl⟩,
    ⟨.ldr .r0 .r0 0, rfl⟩, ⟨.str .r0 .r0 0, rfl⟩, ⟨.rti, rfl⟩, ⟨.not .r0 .r0, rfl⟩, ⟨.ldi .r0 0, rfl⟩,
    ⟨.sti .r0 0, rfl⟩, ⟨.jmp .r0, rfl⟩, ⟨.unusedOpcode 0, rfl⟩, ⟨.lea .r0 0, rfl⟩, ⟨.trap 0, rfl⟩]

/-- The decoder accepts exactly the words of the rows (30_encoding.md R104, R116). -/
theorem decode_instruction_iff_row (w : Word) :
    (∃ i, decode w = .instruction i) ↔ ∃ row ∈ strictRows, w &&& row.2 = row.1 := by
  constructor
  · rintro ⟨i, hi⟩
    obtain ⟨-, rfl⟩ := encode_of_decode hi
    exact ⟨_, rowOf_mem_strictRows i, encode_masked i⟩
  · rintro ⟨row, hrow, hw⟩
    obtain ⟨i, rfl⟩ := exists_rowOf hrow
    exact ⟨_, encodedAs_readForm i w hw⟩

theorem decode_nonCanonical_iff (w : Word) :
    decode w = .nonCanonical w ↔ ∀ row ∈ strictRows, w &&& row.2 ≠ row.1 := by
  have hrow := decode_instruction_iff_row w
  rcases decode_cases w with ⟨i, h⟩ | h
  · obtain ⟨row, hmem, hw⟩ := hrow.1 ⟨i, h⟩
    exact iff_of_false (by simp [h]) fun hall => hall row hmem hw
  · refine iff_of_true h fun row hmem hw => ?_
    obtain ⟨i, hi⟩ := hrow.2 ⟨row, hmem, hw⟩
    simp [h] at hi

/-- Two rows differ in a bit that both fix. -/
theorem strictRows_differ : strictRows.Pairwise fun a b => a.1 &&& b.2 ≠ b.1 &&& a.2 := by decide

/-! ### The statements -/

/-- Settles O1: the encoded word lies in its form's row, where the decoder reads the fields, which are the operands. -/
theorem decodeOfEncode : Obligations.DecodeOfEncode := fun i h => by
  rw [encodedAs_readForm i _ (encode_masked i), readForm_encode h]

/-- Settles O2: by the walk through the decoder, a word whose fixed bits agree is put together from what was read. -/
theorem encodeOfDecode : Obligations.EncodeOfDecode := fun _ _ => encode_of_decode

/-- Settles O3: what decodes is well-formed. -/
theorem unfittingNumberHasNoEncoding : Obligations.UnfittingNumberHasNoEncoding :=
  fun _ hill _ h => hill (encode_of_decode h).1

/-- Settles O4: an accepted word is an encoding and so lies in a row; a word in two rows would agree on the bits that both
fix. -/
theorem refusedWordsMatchNoRow : Obligations.RefusedWordsMatchNoRow := by
  refine ⟨decode_nonCanonical_iff, strictRows_differ.imp ?_⟩
  rintro a b hdiffer w ⟨ha, hb⟩
  refine hdiffer ?_
  rw [← ha, ← hb, BitVec.and_assoc, BitVec.and_assoc, BitVec.and_comm a.2]

/-- Settles O5: the loose decoder accepts what the walk reads, fixed bits or not. -/
theorem looseDecodingIsTotal : Obligations.LooseDecodingIsTotal := by
  intro w
  obtain ⟨i, agree, h⟩ := exists_readsAs w
  refine ⟨i, ?_, fun j hj => ?_⟩
  · rw [h.decodes]
    cases agree <;> rfl
  · rw [decode_of_readsAs h] at hj
    cases agree <;> cases hj
    rfl

/-- Settles O6: the words are decoded bit by bit. -/
theorem exampleWordsDecode : Obligations.ExampleWordsDecode := by
  unfold Obligations.ExampleWordsDecode
  decide

end Sys2Proof.Machine
end

section
/-! One step of the machine: everything an instruction that completes can do to the state, and what follows for the
invariant, the platform, the saved stack pointers and the memory (10_state.md R24, R32, R34; 20_memory.md R60, R64, R78). -/

namespace Sys2Proof.Machine

/-! ### Everything one instruction can do -/

/-- The state in which a load or a store makes its access: the state itself, or the one after the read of a pointer. -/
inductive AccessState (s : State) : State → Prop where
  | direct : AccessState s s
  | pointer (a : Word) : AccessState s (s.afterRead a)

theorem AccessState.readFrame {s before : State} (h : AccessState s before) : ReadFrame s before := by
  cases h with
  | direct => exact .refl s
  | pointer a => exact (ReadFrame.refl s).afterRead a

theorem AccessState.inv {s before : State} (h : AccessState s before) (hs : s.Inv) : before.Inv := by
  cases h with
  | direct => exact hs
  | pointer a => exact hs.afterRead a

/-- The instruction is ST, STI or STR (20_memory.md R64). -/
inductive IsStore : Instr → Prop where
  | st (sr : Reg) (off : Int) : IsStore (.st sr off)
  | sti (sr : Reg) (off : Int) : IsStore (.sti sr off)
  | str (sr base : Reg) (off : Int) : IsStore (.str sr base off)

/-- The instruction raises an exception in this state (60_exceptions.md R212, R213). -/
inductive Raises (s : State) : Instr → Prop where
  | rti (hu : s.userMode = true) : Raises s .rti
  | unusedOpcode (anyBits : BitVec 12) : Raises s (.unusedOpcode anyBits)

/-- The ways the instruction `i`, executed in `s`, can give the next state `t`. -/
inductive ExecEffect (s : State) (i : Instr) (t : State) : Prop where
  /-- No access: arithmetic, LEA, branches, jumps and host services. -/
  | internal (h : t = { s with
      regs := t.regs, pc := t.pc, psr := t.psr, input := t.input, output := t.output, halted := t.halted,
      freeIndex := t.freeIndex })
  | loaded {before : State} (hb : AccessState s before) (dr : Reg) (ea : Word) (ht : t = before.load dr ea)
  | stored {before : State} (hi : IsStore i) (hb : AccessState s before) (ea v : Word) (ht : t = before.writeWord ea v)
  | trapped (vector : Nat) (ht : t = s.trapVectored vector)
  | excepted (hi : Raises s i) (cause : ExceptionCause) (ht : t = s.takeException cause)
  | returned (hi : i = .rti) (hu : s.userMode = false) (ht : t = s.returnFromInterrupt)

theorem execTrap_effect {vector : Nat} {s t : State} (h : execTrap vector s = .next t) :
    ExecEffect s (.trap vector) t := by
  rcases execTrap_cases vector s with e | ⟨-, e⟩ | ⟨-, -, e⟩ | ⟨c, rest, -, -, e⟩ | ⟨-, e⟩ <;> rw [e] at h <;> cases h
  case inl => exact .trapped vector rfl
  all_goals exact .internal rfl

theorem execRti_effect {s t : State} (h : execRti s = .next t) : ExecEffect s .rti t := by
  rcases execRti_next h with ⟨hu, ht⟩ | ⟨hu, ht⟩
  · exact .excepted (.rti hu) _ ht
  · exact .returned rfl hu ht

theorem execUnusedOpcode_effect {anyBits : BitVec 12} {s t : State} (h : execUnusedOpcode anyBits s = .next t) :
    ExecEffect s (.unusedOpcode anyBits) t := by
  obtain ⟨-, ht⟩ := State.raiseException_next h
  exact .excepted (.unusedOpcode anyBits) _ ht

/-- Everything an instruction that completes can do. -/
theorem exec_effect {i : Instr} {s t : State} (h : exec i s = .next t) : ExecEffect s i t := by
  cases i with
  | rti => exact execRti_effect h
  | unusedOpcode anyBits => exact execUnusedOpcode_effect h
  | trap vector => exact execTrap_effect h
  | br n z p off =>
    cases (exec_br n z p off s).symm.trans h
    exact .internal rfl
  | lea dr off =>
    cases (execLea_eq dr off s).symm.trans h
    exact .internal rfl
  | addReg dr sr1 sr2 | addImm dr sr1 imm | andReg dr sr1 sr2 | andImm dr sr1 imm | not dr sr | jsr off | jsrr base
  | jmp base =>
    cases h
    exact .internal rfl
  | ld dr off | ldr dr base off =>
    cases h
    exact .loaded .direct dr _ rfl
  | ldi dr off =>
    cases h
    exact .loaded (.pointer _) dr _ rfl
  | st sr off =>
    cases h
    exact .stored (.st sr off) .direct _ _ rfl
  | str sr base off =>
    cases h
    exact .stored (.str sr base off) .direct _ _ rfl
  | sti sr off =>
    cases h
    exact .stored (.sti sr off) (.pointer _) _ _ rfl

/-! ### The invariant -/

theorem State.Inv.takeInterrupt {s : State} (h : s.Inv) : s.takeInterrupt.Inv := (h.enter _ _).of_eq rfl rfl

theorem ExecEffect.inv {s t : State} {i : Instr} (e : ExecEffect s i t) (hs : s.Inv) : t.Inv := by
  cases e with
  | internal h =>
    rw [h]
    exact hs.of_eq rfl rfl
  | loaded hb dr ea ht => exact ht ▸ (hb.inv hs).load dr ea
  | stored _ hb ea v ht => exact ht ▸ (hb.inv hs).writeWord ea v
  | trapped vector ht => exact ht ▸ hs.trapVectored vector
  | excepted _ cause ht => exact ht ▸ hs.takeException cause
  | returned _ _ ht => exact ht ▸ hs.returnFromInterrupt

/-- Settles O16: an interrupt's entry and each effect of an instruction keep the invariant. -/
theorem stepKeepsInv : Obligations.StepKeepsInv := by
  intro s t hs h
  obtain ⟨-, -, ⟨-, rfl⟩ | ⟨-, i, -, he⟩⟩ := step_next_cases h
  · exact hs.takeInterrupt
  · exact (exec_effect he).inv hs.afterFetch

/-- Settles O15: no location is written after reset, and KBDR is zero. -/
theorem invAfterReset : Obligations.InvAfterReset := State.Inv.reset

/-! ### The platform, the saved stack pointers and the memory -/

@[simp] theorem State.trapVectored_platform (s : State) (vector : Nat) :
    (s.trapVectored vector).platform = s.platform := by
  simp [State.trapVectored]

@[simp] theorem State.trapVectored_mem (s : State) (vector : Nat) : (s.trapVectored vector).mem = s.mem := by
  simp [State.trapVectored]

@[simp] theorem State.takeInterrupt_platform (s : State) : s.takeInterrupt.platform = s.platform := s.enter_platform _ _

theorem ExecEffect.platform {s t : State} {i : Instr} (e : ExecEffect s i t) : t.platform = s.platform := by
  cases e with
  | internal h => rw [h]
  | loaded hb dr ea ht => rw [ht, State.load, State.writeResult_platform, State.afterRead_platform, hb.readFrame.platform]
  | stored _ hb ea v ht => rw [ht, State.writeWord_platform, hb.readFrame.platform]
  | trapped vector ht => rw [ht, State.trapVectored_platform]
  | excepted _ cause ht => rw [ht, State.takeException_platform]
  | returned _ _ ht => rw [ht, State.returnFromInterrupt_platform]

/-- Settles O25: no effect of a step reaches the platform. -/
theorem stepKeepsPlatform : Obligations.StepKeepsPlatform := by
  intro s t h
  obtain ⟨-, -, ⟨-, rfl⟩ | ⟨-, i, -, he⟩⟩ := step_next_cases h
  · exact s.takeInterrupt_platform
  · exact (exec_effect he).platform.trans s.afterFetch_platform

/-- Only an entry and a return exchange stack pointers (10_state.md R34). -/
theorem ExecEffect.savedPointers {s t : State} {i : Instr} (e : ExecEffect s i t) (hrti : i ≠ .rti)
    (hraise : ¬ Raises s i) : t.savedSsp = s.savedSsp ∧ t.savedUsp = s.savedUsp := by
  cases e with
  | internal h =>
    rw [h]
    exact ⟨rfl, rfl⟩
  | loaded hb dr ea ht | stored _ hb ea v ht =>
    obtain ⟨hssp, husp, -⟩ := hb.readFrame.system
    simp [ht, State.load, hssp, husp]
  | trapped vector ht => simp [ht, State.trapVectored]
  | excepted hi => exact absurd hi hraise
  | returned hi => exact absurd hi hrti

/-- An instruction that neither returns nor raises writes the condition codes of the PSR at most (10_state.md R32). -/
theorem PsrEffect.samePsrAboveCodes {s t : State} {i : Instr} (e : PsrEffect s i t) (hrti : i ≠ .rti)
    (hraise : ¬ Raises s i) : s.samePsrAboveCodes t := by
  cases e with
  | kept h => rw [State.samePsrAboveCodes, h]
  | coded c h =>
    rw [State.samePsrAboveCodes, h]
    exact s.setCode_samePsrAboveCodes c
  | excepted hi _ =>
    rcases hi with ⟨hi, -⟩ | ⟨anyBits, rfl⟩
    · exact absurd hi hrti
    · exact absurd (.unusedOpcode anyBits) hraise
  | popped hi => exact absurd hi hrti

/-- Settles O23: the two effects of an instruction that reach these fields are those of RTI and of a raise. -/
theorem psrAndSavedPointersFrame : Obligations.PsrAndSavedPointersFrame := by
  intro s t h hint hrti hunused
  obtain ⟨-, -, ⟨hint', -⟩ | ⟨-, i, hd, he⟩⟩ := step_next_cases h
  · simp [hint] at hint'
  · have hi : i ≠ .rti := by
      rintro rfl
      exact hrti hd
    have hraise : ¬ Raises s.afterFetch i := by
      rintro (_ | anyBits)
      · exact hi rfl
      · exact hunused anyBits hd
    obtain ⟨hssp, husp⟩ := (exec_effect he).savedPointers hi hraise
    refine ⟨?_, hssp.trans s.afterFetch_savedSsp, husp.trans s.afterFetch_savedUsp⟩
    rw [State.samePsrAboveCodes, ← s.afterFetch_psr]
    exact (exec_psrEffect he).samePsrAboveCodes hi hraise

theorem ExecEffect.mem {s t : State} {i : Instr} (e : ExecEffect s i t) (hstore : ¬ IsStore i) (hraise : ¬ Raises s i) :
    t.mem = s.mem := by
  cases e with
  | internal h => rw [h]
  | loaded hb dr ea ht => rw [ht, State.load, State.writeResult_mem, State.afterRead_mem, hb.readFrame.mem]
  | stored hi => exact absurd hi hstore
  | trapped vector ht => rw [ht, State.trapVectored_mem]
  | excepted hi => exact absurd hi hraise
  | returned _ _ ht => rw [ht, State.returnFromInterrupt_mem]

/-- Settles O24: reads, results, traps and returns leave the memory as the fetch leaves it. -/
theorem onlyStoresAndEntriesWriteMemory : Obligations.OnlyStoresAndEntriesWriteMemory := by
  intro s t h hint hkind
  obtain ⟨-, -, ⟨hint', -⟩ | ⟨-, i, hd, he⟩⟩ := step_next_cases h
  · simp [hint] at hint'
  · obtain ⟨hst, hsti, hstr, hunused, hrti⟩ := hkind i hd
    have hstore : ¬ IsStore i := by
      rintro (⟨sr, off⟩ | ⟨sr, off⟩ | ⟨sr, base, off⟩)
      · exact hst sr off rfl
      · exact hsti sr off rfl
      · exact hstr sr base off rfl
    have hraise : ¬ Raises s.afterFetch i := by
      rintro (hu | anyBits)
      · simp [hrti rfl] at hu
      · exact hunused anyBits rfl
    exact State.peek_of_mem (((exec_effect he).mem hstore hraise).trans s.afterFetch_mem)

/-! ### The fetch and the ends of a run -/

/-- Settles O17: by the literal fields of the reset state. -/
theorem resetState : Obligations.ResetState := ⟨State.reset_codesOneHot, rfl, ⟨rfl, rfl, rfl⟩, rfl, fun _ => rfl⟩

/-- With no device attached a fetch changes no stream and no device register. -/
theorem State.afterFetch_sameDevices_of_empty {s : State} (h : s.platform.deviceMap = .empty) :
    s.sameDevices s.afterFetch :=
  ((ReadFrame.refl s).afterRead s.pc).devices h

/-- The word at PC, decoded, is executed in the state after the fetch (10_state.md R24). -/
theorem step_of_decode {s : State} {i : Instr} (h : s.fetches) (hd : decode (s.readWord s.pc) = .instruction i) :
    step s = exec i s.afterFetch := by
  rw [step_of_fetches h, hd]

/-- Settles O18: the fetch is one read at PC, with IR and PC written after it. -/
theorem stepRunsDecodedInstruction : Obligations.StepRunsDecodedInstruction := by
  intro s i hhalted hclock hint hd
  exact ⟨(encode_of_decode hd).1, step_of_decode ⟨hhalted, hclock, hint⟩ hd, s.afterFetch_pc, s.afterFetch_ir,
    s.afterFetch_reg, s.afterFetch_psr, s.afterFetch_savedSsp, s.afterFetch_savedUsp, s.afterFetch_peek, s.afterFetch_mar,
    s.afterFetch_mdr, s.afterFetch_output, s.afterFetch_halted.trans hhalted, s.afterFetch_platform,
    State.sameDevices_refl _,
    fun hempty => ⟨State.readWord_of_empty hempty _, State.afterFetch_sameDevices_of_empty hempty⟩⟩

/-- Settles O19: a word of no row is one the decoder refuses. -/
theorem nonCanonicalWordIsRefused : Obligations.NonCanonicalWordIsRefused := by
  intro s hfetch hrow
  rw [step_of_fetches hfetch, (decode_nonCanonical_iff _).2 hrow]

/-- Settles O59: the flag is looked at before anything else. -/
theorem haltedTakesNoStep : Obligations.HaltedTakesNoStep := by
  intro s h
  rw [step, if_pos h]

/-- A granted interrupt is requested, enabled and above the running priority (60_exceptions.md R217). -/
theorem State.interruptGranted_iff (s : State) :
    s.interruptGranted = true ↔
      s.platform.interruptSources = .keyboard ∧ s.kbsr.getLsbD 15 = true ∧ s.kbsr.getLsbD 14 = true ∧ s.priority < 4 := by
  cases hsource : s.platform.interruptSources with
  | none => simp [State.interruptGranted, hsource]
  | keyboard =>
    have hlevel : decide (s.priority < Config.keyboardLevel) = true ↔ s.priority < 4 := decide_eq_true_iff
    simp only [State.interruptGranted, hsource, Bool.and_eq_true, hlevel, true_and, and_assoc]

/-- Settles O58: each of the four reasons denies one of the conditions of a grant. -/
theorem noInterruptWithoutRequest : Obligations.NoInterruptWithoutRequest := by
  intro s hreason
  rw [← Bool.not_eq_true, State.interruptGranted_iff]
  rintro ⟨hsource, hready, henabled, hpriority⟩
  rcases hreason with h | h | h | h
  · cases hsource.symm.trans h
  · cases hready.symm.trans h
  · cases henabled.symm.trans h
  · exact h hpriority

end Sys2Proof.Machine
end

section
/-! Operands and effective addresses as numbers (30_encoding.md R93 to R97; 20_memory.md R67; 42_control.md R191), and the
reads and writes of plain memory (20_memory.md R65, R66, R72). -/

namespace Sys2Proof.Machine

/-! ### Immediates and table addresses -/

/-- Settles O7: a field's bits are a two's complement number of the field's width, and cutting it to the field again gives
the bits back. -/
theorem immediatesAreSignExtendedFields : Obligations.ImmediatesAreSignExtendedFields := by
  intro w
  have h5 := fitsSigned_toInt (w.extractLsb' 0 5)
  have h6 := fitsSigned_toInt (w.extractLsb' 0 6)
  have h9 := fitsSigned_toInt (w.extractLsb' 0 9)
  have h11 := fitsSigned_toInt (w.extractLsb' 0 11)
  refine ⟨⟨h5.1, Int.lt_add_one_iff.1 h5.2, ?_⟩, ⟨h6.1, Int.lt_add_one_iff.1 h6.2, ?_⟩,
    ⟨h9.1, Int.lt_add_one_iff.1 h9.2, ?_⟩, h11.1, Int.lt_add_one_iff.1 h11.2, ?_⟩
  · rw [sext5, ofInt_imm5Field]
  · rw [sext6, ofInt_offset6Field]
  · rw [sext9, ofInt_pcOffset9Field]
  · rw [sext11, ofInt_pcOffset11Field]

theorem State.pcRelative11_eq_wrappedSum (s : State) {off : Int} (hlo : -1024 ≤ off) (hhi : off ≤ 1023) :
    s.pcRelative11 off = wrappedSum s.pc off := by
  have hfit : fitsSigned 11 off := ⟨hlo, Int.lt_add_one_of_le hhi⟩
  rw [State.pcRelative11, sext11_eq hfit, add_ofInt_eq_wrappedSum]

theorem toNat_wrappedSum (a : Word) (off : Int) : ((wrappedSum a off).toNat : Int) = ((a.toNat : Int) + off) % 65536 := by
  rw [wrappedSum, BitVec.toNat_ofInt, Int.toNat_of_nonneg (Int.emod_nonneg _ (by decide))]
  rfl

/-- Settles O8: each address is a wrapped sum, which is the sum modulo 2^16. -/
theorem addressesWrapModuloMemory : Obligations.AddressesWrapModuloMemory := by
  refine fun s => ⟨fun off hlo hhi => ?_, fun off hlo hhi => ?_, fun base off hlo hhi => ?_, ?_, ?_⟩
  · rw [s.pcRelative9_eq_wrappedSum hlo hhi, toNat_wrappedSum]
  · rw [s.pcRelative11_eq_wrappedSum hlo hhi, toNat_wrappedSum]
  · rw [s.baseOffset_eq_wrappedSum base hlo hhi, toNat_wrappedSum]
  · exact BitVec.toNat_add s.pc 1
  · rw [State.afterPop_reg, if_pos rfl]
    exact BitVec.toNat_add _ 1

/-- A vector below x80 has its sign bit clear, so that extending it changes nothing. -/
theorem trapTableAddress_low {vector : Nat} (h : vector < 0x80) : trapTableAddress vector = BitVec.ofNat 16 vector := by
  have hmsb : (BitVec.ofNat 8 vector).msb = false := by
    rw [BitVec.msb_eq_false_iff_two_mul_lt, BitVec.toNat_ofNat]
    omega
  rw [trapTableAddress_eq, BitVec.signExtend_eq_setWidth_of_msb_false hmsb]
  exact BitVec.setWidth_ofNat_of_le_of_lt (by decide) (by omega)

/-- A vector from x80 on has its sign bit set, so that extending it fills bits 15:8. -/
theorem trapTableAddress_high {vector : Nat} (hlo : 0x80 ≤ vector) (hhi : vector < 256) :
    trapTableAddress vector = BitVec.ofNat 16 (vector + 0xFF00) := by
  have hmsb : (BitVec.ofNat 8 vector).msb = true := by
    rw [BitVec.msb_eq_true_iff_two_mul_ge, BitVec.toNat_ofNat]
    omega
  apply BitVec.eq_of_toNat_eq
  rw [trapTableAddress_eq, BitVec.toNat_signExtend, hmsb, if_pos rfl, BitVec.toNat_setWidth, BitVec.toNat_ofNat,
    BitVec.toNat_ofNat]
  omega

/-- Settles O9: the two halves of the vector's range. -/
theorem trapTableAddressOfVector : Obligations.TrapTableAddressOfVector := by
  refine fun vector hv => ⟨fun h => ?_, fun h => ?_⟩
  · rw [trapTableAddress_low h, BitVec.toNat_ofNat]
    omega
  · rw [trapTableAddress_high h hv, BitVec.toNat_ofNat]
    omega

/-! ### Plain memory -/

/-- Settles O10: an address that no device owns is written and read as a location. -/
theorem writtenWordIsReadBack : Obligations.WrittenWordIsReadBack := by
  intro s a v hplain
  refine ⟨?_, fun b hb => ?_⟩
  · rw [State.readWord_plain (by rwa [State.writeWord_platform]), State.writeWord_peek, if_pos ⟨hplain, rfl⟩]
  · rw [State.writeWord_peek, if_neg fun h => hb h.2]

/-- Settles O11: a read keeps the frame of reads, and so leaves what it answers. -/
theorem plainReadHasNoSideEffect : Obligations.PlainReadHasNoSideEffect := by
  intro s a hplain
  have hframe : ReadFrame s (s.afterRead a) := (ReadFrame.refl s).afterRead a
  have hread : s.readWord a = s.peek a := State.readWord_plain hplain
  have hagain : (s.afterRead a).readWord a = s.peek a := by
    rw [State.readWord_plain (by rwa [State.afterRead_platform]), State.afterRead_peek]
  exact ⟨hread, hagain.trans hread.symm, hframe.peek, hframe.reg, hframe.psr, hframe.pc, hframe.system, hframe.output,
    hframe.devices⟩

/-- The three conditions of a fetch look neither at the PC nor at the memory. -/
theorem State.fetches_writeWord {s : State} (h : s.fetches) (hempty : s.platform.deviceMap = .empty) (a v : Word) :
    { s.writeWord a v with pc := a }.fetches := by
  rw [State.writeWord_of_empty hempty]
  exact h

/-- Settles O12: the next step fetches from the location that the store wrote. -/
theorem nextFetchSeesTheStore : Obligations.NextFetchSeesTheStore := by
  intro s a v i hfetch hempty hd
  have hplain : deviceAt s.platform.deviceMap a = none := by rw [hempty, deviceAt_empty]
  have hread : { s.writeWord a v with pc := a }.readWord a = v :=
    ((s.writeWord a v).readWord_withCpu _ a _ _ _ a).trans (writtenWordIsReadBack s a v hplain).1
  exact ⟨step_of_decode (State.fetches_writeWord hfetch hempty a v) (hd ▸ congrArg decode hread), hread⟩

end Sys2Proof.Machine
end

section
/-! LEA, JSR and JSRR (41_data_movement.md R160, 42_control.md R186 to R189), the subtraction of 40_arithmetic.md R139, and
the corner cases of BR (42_control.md R181). -/

namespace Sys2Proof.Machine

/-! ### LEA, JSR, JSRR -/

theorem exec_lea (dr : Reg) (off : Int) (s : State) :
    exec (.lea dr off) s = .next (s.writeResult dr (s.pcRelative9 off)) := rfl

theorem exec_jsr (off : Int) (s : State) :
    exec (.jsr off) s = .next { s.setReg .r7 s.pc with pc := s.pcRelative11 off } := rfl

theorem exec_jsrr (base : Reg) (s : State) :
    exec (.jsrr base) s = .next { s.setReg .r7 s.pc with pc := if base = .r7 then s.pc else s.reg base } := by
  change execJsrr base s = _
  rw [execJsrr, State.setReg_reg]

/-- The link of JSR, JSRR and TRAP: R7 holds the incremented PC (42_control.md R186). -/
theorem State.link_onlyRegWritten (s : State) : s.onlyRegWritten (s.setReg .r7 s.pc) .r7 s.pc :=
  fun r => s.setReg_reg .r7 r s.pc

/-- Settles O39: LEA writes its address as a result. -/
theorem leaResult : Obligations.LeaResult := by
  refine ⟨encodedAs_lea, fun dr off s hlo hhi => ⟨_, exec_lea dr off s, ?_⟩⟩
  rw [s.pcRelative9_eq_wrappedSum hlo hhi]
  exact s.writeResult_resultWritten dr _

/-- Settles O43: the link, and the PC as a wrapped sum. -/
theorem jsrResult : Obligations.JsrResult :=
  ⟨encodedAs_jsr, fun off s hlo hhi =>
    ⟨_, exec_jsr off s, s.link_onlyRegWritten, s.pcRelative11_eq_wrappedSum hlo hhi, rfl⟩⟩

/-- Settles O44: the base register is read after the link is written. -/
theorem jsrrResult : Obligations.JsrrResult :=
  ⟨encodedAs_jsrr, fun base s =>
    ⟨_, exec_jsrr base s, s.link_onlyRegWritten, fun h => if_neg h, fun h => if_pos h, rfl⟩⟩

/-- Settles O45: RET jumps to the link, which the fetch of RET keeps. -/
theorem retReturnsFromJsr : Obligations.RetReturnsFromJsr := by
  intro off s
  refine ⟨_, _, exec_jsr off s, exec_jmp .r7 _, ?_, fun r hr => ?_, ?_, fun a => ?_⟩
  · exact (State.afterFetch_reg _ .r7).trans (s.link_onlyRegWritten .r7)
  · exact (State.afterFetch_reg _ r).trans ((s.link_onlyRegWritten r).trans (if_neg hr))
  · exact State.afterFetch_psr _
  · exact State.afterFetch_peek _ a

/-! ### Subtraction -/

/-- Settles O32: NOT gives -v - 1, so adding 1 gives -v. -/
theorem subtractionByNotAndAdd : Obligations.SubtractionByNotAndAdd := by
  intro rd ra rb rt s hne
  obtain ⟨t1, ht1⟩ : ∃ t, t = s.writeResult rt (~~~s.reg rb) := ⟨_, rfl⟩
  obtain ⟨t2, ht2⟩ : ∃ t, t = t1.writeResult rt (t1.reg rt + BitVec.ofInt 16 1) := ⟨_, rfl⟩
  have hrt : t2.reg rt = -s.reg rb := by
    rw [ht2, State.writeResult_reg_same, ht1, State.writeResult_reg_same]
    exact (BitVec.neg_eq_not_add (s.reg rb)).symm
  have hra : t2.reg ra = s.reg ra := by
    rw [ht2, State.writeResult_reg, if_neg hne.symm, ht1, State.writeResult_reg, if_neg hne.symm]
  have hsum : t2.reg ra + t2.reg rt = s.reg ra - s.reg rb := by rw [hrt, hra, BitVec.sub_eq_add_neg]
  obtain ⟨hrd, hcodes, -⟩ := t2.writeResult_resultWritten rd (t2.reg ra + t2.reg rt)
  refine ⟨t1, t2, _, ht1 ▸ exec_not rt rb s, ht2 ▸ exec_addImm (fitsSigned_imm5 (by decide) (by decide)) rt rt t1,
    exec_addReg rd ra rt t2, hrt, ?_, hsum ▸ hcodes⟩
  rw [hrd, if_pos rfl, hsum]

/-! ### BR -/

/-- `setcc(v)` and then a branch on the codes: the branch sees the sign of `v`. -/
theorem State.taken_setCC (s : State) (n z p : Bool) (v : Word) :
    (s.setCC v).taken n z p = true ↔
      (n = true ∧ v.toInt < 0) ∨ (z = true ∧ v.toInt = 0) ∨ (p = true ∧ 0 < v.toInt) := by
  obtain ⟨hn, hz, hp⟩ := s.setCC_codesSay v
  rw [State.taken_iff, hn, hz, hp]
  simp only [decide_eq_true_eq]

/-- BRnzp tests all three codes. -/
theorem State.taken_of_codesOneHot {s : State} (h : s.codesOneHot) : s.taken true true true = true := by
  rw [State.taken_iff]
  rcases h with ⟨hn, -, -⟩ | ⟨-, hz, -⟩ | ⟨-, -, hp⟩
  · exact .inl ⟨rfl, hn⟩
  · exact .inr (.inl ⟨rfl, hz⟩)
  · exact .inr (.inr ⟨rfl, hp⟩)

/-- A BR whose condition is known. -/
theorem exec_br_of_taken_iff {n z p : Bool} {s : State} {c : Prop} [Decidable c] (h : s.taken n z p = true ↔ c)
    (off : Int) : exec (.br n z p off) s = .next { s with pc := if c then s.pcRelative9 off else s.pc } := by
  rw [exec_br]
  simp only [h]

/-- Settles O41: the branch condition in each case, and the two offsets that come back to the BR and to the next
instruction. -/
theorem brCornerCases : Obligations.BrCornerCases := by
  refine ⟨fun off s h => ?_, fun off s => rfl, fun off s v => ⟨?_, ?_, ?_⟩, fun s => ?_, fun n z p s => ?_,
    fun off s hn hz hp => ?_⟩
  · rw [exec_br, if_pos (State.taken_of_codesOneHot h)]
  · have hzp : (s.setCC v).taken false true true = true ↔ 0 ≤ v.toInt := by
      simp only [State.taken_setCC, Bool.false_eq_true, false_and, true_and, false_or]
      omega
    exact exec_br_of_taken_iff hzp off
  · have hnz : (s.setCC v).taken true true false = true ↔ v.toInt ≤ 0 := by
      simp only [State.taken_setCC, Bool.false_eq_true, false_and, true_and, or_false]
      omega
    exact exec_br_of_taken_iff hnz off
  · have hnp : (s.setCC v).taken true false true = true ↔ v.toInt ≠ 0 := by
      simp only [State.taken_setCC, Bool.false_eq_true, false_and, true_and, false_or]
      omega
    exact exec_br_of_taken_iff hnp off
  · have hback : sext9 (-1) = -1 := by decide
    rw [State.pcRelative9, s.afterFetch_pc, hback]
    exact add_neg_cancel_right s.pc 1
  · have hself : s.pcRelative9 0 = s.pc := BitVec.add_zero _
    rw [exec_br, hself, ite_self]
  · have hnone : s.taken true true true = false := by rw [State.taken, hn, hz, hp]; rfl
    rw [exec_br, hnone]
    rfl

end Sys2Proof.Machine
end

section
/-! TRAP (42_control.md R190, 60_exceptions.md R226 to R229), and how every instruction ends: it completes, waits for input,
or raises an exception whose table entry has not been written (60_exceptions.md R214, 70_reset_and_hazards.md R252). -/

namespace Sys2Proof.Machine

/-! ### The meaning of TRAP -/

theorem exec_trap_of_vectored {s : State} (h : s.platform.trapModel = .vectored) (vector : Nat) :
    exec (.trap vector) s = .next (s.trapVectored vector) := by
  change execTrap vector s = _
  simp only [execTrap, h]

theorem exec_trap_of_noService {vector : Nat} (h : serviceOf vector = none) (s : State) :
    exec (.trap vector) s = .next (s.trapVectored vector) := by
  change execTrap vector s = _
  cases hm : s.platform.trapModel <;> simp only [execTrap, hm, h]

section
variable {s : State} (hm : s.platform.trapModel = .hostService)
include hm

theorem exec_trap_output : exec (.trap 0x21) s = .next s.serviceOutput := by
  change execTrap 0x21 s = _
  simp only [execTrap, hm]
  rfl

theorem exec_trap_input_waits (hi : s.input = []) : exec (.trap 0x23) s = .fault .waitingForInput := by
  change execTrap 0x23 s = _
  have hservice : serviceOf 0x23 = some .input := rfl
  simp only [execTrap, hm, hservice, hi]

theorem exec_trap_input {c : Byte} {rest : List Byte} (hi : s.input = c :: rest) :
    exec (.trap 0x23) s = .next (s.serviceInput c rest) := by
  change execTrap 0x23 s = _
  have hservice : serviceOf 0x23 = some .input := rfl
  simp only [execTrap, hm, hservice, hi]

theorem exec_trap_halt : exec (.trap 0x25) s = .next s.serviceHalt := by
  change execTrap 0x25 s = _
  simp only [execTrap, hm]
  rfl

end

/-- The three documented services, and no other (42_control.md R193). -/
theorem serviceOf_eq_none {vector : Nat} (h : vector < 256) (h21 : vector ≠ 0x21) (h23 : vector ≠ 0x23)
    (h25 : vector ≠ 0x25) : serviceOf vector = none := by
  unfold serviceOf
  rw [toNat_ofNat_of_fits h]
  split <;> trivial

/-! ### TRAP through the trap table -/

/-- The vectored TRAP is one read, with R7 and the PC written after it. -/
theorem State.trapVectored_eq_afterRead (s : State) (vector : Nat) :
    s.trapVectored vector =
      (s.afterRead (trapTableAddress vector)).withCpu (s.regs.set .r7 s.pc) (s.readWord (trapTableAddress vector)) s.psr
        s.savedSsp s.savedUsp := by
  rw [State.trapVectored, State.jumpThrough, State.setReg_readWord]
  exact congrArg (fun t : State => { t with pc := s.readWord (trapTableAddress vector) }) (s.afterRead_withCpu ..)

/-- Every device register lies from xFE00 on (20_memory.md R78). -/
theorem deviceAt_low {a : Word} (h : a.toNat < 0xFE00) (devices : DeviceMap) : deviceAt devices a = none := by
  cases devices with
  | empty => rfl
  | customary =>
    have hne (b : Word) (hb : 0xFE00 ≤ b.toNat) : a ≠ b := by
      rintro rfl
      omega
    rw [deviceAt, if_neg (hne _ (by decide)), if_neg (hne _ (by decide)), if_neg (hne _ (by decide)),
      if_neg (hne _ (by decide)), if_neg (hne _ (by decide))]

/-- Settles O46: the table entry is read as one more memory access; below x80 it is plain memory. -/
theorem trapVectoredResult : Obligations.TrapVectoredResult := by
  refine ⟨encodedAs_trap, fun vector s hv hcase => ⟨s.trapVectored vector, ?_, ?_⟩⟩
  · rcases hcase with hm | ⟨h21, h23, h25⟩
    · exact exec_trap_of_vectored hm vector
    · exact exec_trap_of_noService (serviceOf_eq_none hv h21 h23 h25) s
  · have hframe : ReadFrame s (s.afterRead (trapTableAddress vector)) := (ReadFrame.refl s).afterRead _
    obtain ⟨-, -, hsystem⟩ := hframe.system
    rw [State.trapVectored_eq_afterRead]
    refine ⟨s.link_onlyRegWritten, rfl, rfl, fun hlow => ?_, fun hhigh hempty => ?_, State.afterRead_mar _ _,
      State.afterRead_mdr _ _, hframe.peek, ⟨rfl, rfl, hsystem⟩, hframe.output, State.sameDevices_refl _,
      hframe.devices⟩
    · have hplain : (BitVec.ofNat 16 vector).toNat < 0xFE00 := by
        rw [BitVec.toNat_ofNat]
        omega
      rw [← State.readWord_plain (deviceAt_low hplain s.platform.deviceMap), ← trapTableAddress_low hlow]
      rfl
    · rw [← State.readWord_of_empty hempty, ← trapTableAddress_high hhigh hv]
      rfl

/-! ### The host services -/

/-- Settles O47: the common effects of a service, and the character. -/
theorem trapOutputsCharacter : Obligations.TrapOutputsCharacter := by
  intro s hm
  obtain ⟨hcodes, hpsr, -⟩ := s.afterService_psr_spec
  refine ⟨_, exec_trap_output hm, s.afterService_reg, ?_, hcodes, hpsr, rfl⟩
  exact congrArg (fun c => s.output ++ [c]) (BitVec.setWidth_eq_extractLsb' (by decide))

/-- Settles O48: with no character there is no step; with one, R0 is written after the common effects of a service. -/
theorem trapInputsCharacter : Obligations.TrapInputsCharacter := by
  intro s hm
  obtain ⟨hcodes, hpsr, -⟩ := s.afterService_psr_spec
  refine ⟨exec_trap_input_waits hm, fun c rest hi => ⟨_, exec_trap_input hm hi, fun r => ?_, rfl, rfl, hcodes, hpsr, rfl⟩⟩
  rw [← s.afterService_reg]
  exact s.afterService.setReg_reg .r0 r (c.setWidth 16)

/-- Settles O49: the common effects of a service, and the flag that every later step looks at. -/
theorem trapHaltsTheRun : Obligations.TrapHaltsTheRun := by
  intro s hm
  obtain ⟨hcodes, hpsr, -⟩ := s.afterService_psr_spec
  exact ⟨_, exec_trap_halt hm, rfl, haltedTakesNoStep _ rfl, s.afterService_reg, hcodes, hpsr, rfl⟩

/-! ### Raising the two exceptions -/

theorem exec_rti_of_userMode {s : State} (h : s.userMode = true) :
    exec .rti s = s.raiseException .privilegeModeViolation := by
  change execRti s = _
  rw [execRti, if_pos h]

theorem exec_rti_of_supervisorMode {s : State} (h : s.userMode = false) : exec .rti s = .next s.returnFromInterrupt := by
  change execRti s = _
  rw [execRti, h, if_neg Bool.false_ne_true]

theorem exec_unusedOpcode (anyBits : BitVec 12) (s : State) :
    exec (.unusedOpcode anyBits) s = s.raiseException .illegalOpcode := rfl

/-- The table entries of the two exceptions (60_exceptions.md R215, R222). -/
theorem State.exceptionReady_privilegeModeViolation (s : State) :
    s.exceptionReady .privilegeModeViolation = (Memory.lookup s.mem 0x0100).isSome := rfl

theorem State.exceptionReady_illegalOpcode (s : State) :
    s.exceptionReady .illegalOpcode = (Memory.lookup s.mem 0x0101).isSome := rfl

theorem State.raiseException_of_ready {s : State} {cause : ExceptionCause} (h : s.exceptionReady cause = true) :
    s.raiseException cause = .next (s.takeException cause) := by
  rw [State.raiseException, if_pos h]

theorem State.raiseException_of_not_ready {s : State} {cause : ExceptionCause} (h : s.exceptionReady cause = false) :
    s.raiseException cause = .fault (.exception cause s) := by
  rw [State.raiseException, h, if_neg Bool.false_ne_true]

/-! ### How an instruction ends -/

theorem exec_trap_ends {vector : Nat} (hv : vector < 256) (s : State) :
    (∃ t, exec (.trap vector) s = .next t) ∨
      (vector = 0x23 ∧ s.platform.trapModel = .hostService ∧ s.input = [] ∧
        exec (.trap vector) s = .fault .waitingForInput) := by
  cases hm : s.platform.trapModel with
  | vectored => exact .inl ⟨_, exec_trap_of_vectored hm vector⟩
  | hostService =>
    by_cases h21 : vector = 0x21
    · exact .inl ⟨_, h21 ▸ exec_trap_output hm⟩
    by_cases h25 : vector = 0x25
    · exact .inl ⟨_, h25 ▸ exec_trap_halt hm⟩
    by_cases h23 : vector = 0x23
    · subst h23
      cases hi : s.input with
      | nil => exact .inr ⟨rfl, rfl, rfl, exec_trap_input_waits hm hi⟩
      | cons c rest => exact .inl ⟨_, exec_trap_input hm hi⟩
    · exact .inl ⟨_, exec_trap_of_noService (serviceOf_eq_none hv h21 h23 h25) s⟩

theorem exec_rti_ends (s : State) :
    (∃ t, exec .rti s = .next t) ∨
      (s.userMode = true ∧ Memory.lookup s.mem 0x0100 = none ∧
        exec .rti s = .fault (.exception .privilegeModeViolation s)) := by
  cases hu : s.userMode with
  | false => exact .inl ⟨_, exec_rti_of_supervisorMode hu⟩
  | true =>
    rw [exec_rti_of_userMode hu]
    rcases s.raiseException_cases .privilegeModeViolation with ⟨-, h⟩ | ⟨hready, h⟩
    · exact .inl ⟨_, h⟩
    · exact .inr ⟨rfl, Option.isSome_eq_false_iff.1 hready |> Option.isNone_iff_eq_none.1, h⟩

theorem exec_unusedOpcode_ends (anyBits : BitVec 12) (s : State) :
    (∃ t, exec (.unusedOpcode anyBits) s = .next t) ∨
      (Memory.lookup s.mem 0x0101 = none ∧ exec (.unusedOpcode anyBits) s = .fault (.exception .illegalOpcode s)) := by
  rw [exec_unusedOpcode]
  rcases s.raiseException_cases .illegalOpcode with ⟨-, h⟩ | ⟨hready, h⟩
  · exact .inl ⟨_, h⟩
  · exact .inr ⟨Option.isSome_eq_false_iff.1 hready |> Option.isNone_iff_eq_none.1, h⟩

/-- Settles O20: only TRAP, RTI and opcode 1101 can end otherwise than with a next state. -/
theorem everyInstructionCompletes : Obligations.EveryInstructionCompletes := by
  intro i s hwf
  cases i with
  | trap vector =>
    rcases exec_trap_ends (of_decide_eq_true hwf) s with h | ⟨rfl, h⟩
    · exact .inl h
    · exact .inr (.inl ⟨rfl, h⟩)
  | rti =>
    rcases exec_rti_ends s with h | h
    · exact .inl h
    · exact .inr (.inr (.inl ⟨rfl, h⟩))
  | unusedOpcode anyBits =>
    rcases exec_unusedOpcode_ends anyBits s with h | h
    · exact .inl h
    · exact .inr (.inr (.inr ⟨anyBits, rfl, h⟩))
  | _ => exact .inl ⟨_, rfl⟩

/-- The fault of an exception carries the state in which the instruction was executed. -/
theorem exec_exception_state {i : Instr} {s t : State} {cause : ExceptionCause} (hwf : i.WellFormed)
    (h : exec i s = .fault (.exception cause t)) : t = s := by
  rcases everyInstructionCompletes i s hwf with ⟨u, e⟩ | ⟨-, -, -, e⟩ | ⟨-, -, -, e⟩ | ⟨b, -, -, e⟩ <;> rw [e] at h <;>
    cases h
  · rfl
  · rfl

/-- The fault of an exception that a step raises carries the state after the fetch (60_exceptions.md R223). -/
theorem step_exception_state {s t : State} {cause : ExceptionCause} (h : step s = .fault (.exception cause t)) :
    s.halted = false ∧ t = s.afterFetch := by
  unfold step at h
  split at h
  · cases h
  · rename_i hhalted
    refine ⟨by simpa using hhalted, ?_⟩
    split at h
    · cases h
    · split at h
      · cases h
      · split at h
        · rename_i hd
          exact exec_exception_state (encode_of_decode hd).1 h
        · cases h

/-- Settles O54: the two raises without a table entry, and the state after the fetch as the fault carries it. -/
theorem exceptionNotSetUpIsAFault : Obligations.ExceptionNotSetUpIsAFault := by
  refine fun s => ⟨fun hu hnone => ?_, fun hnone anyBits => ?_, fun cause t h => ?_⟩
  · rw [exec_rti_of_userMode hu]
    exact State.raiseException_of_not_ready (by rw [State.exceptionReady_privilegeModeViolation, hnone]; rfl)
  · exact State.raiseException_of_not_ready (by rw [State.exceptionReady_illegalOpcode, hnone]; rfl)
  · obtain ⟨hhalted, rfl⟩ := step_exception_state h
    exact ⟨s.afterFetch_pc, s.afterFetch_reg, s.afterFetch_psr, s.afterFetch_peek, s.afterFetch_savedSsp,
      s.afterFetch_savedUsp, s.afterFetch_halted.trans hhalted, s.afterFetch_platform, s.afterFetch_output,
      s.afterFetch_ir, State.sameDevices_refl _, State.afterFetch_sameDevices_of_empty⟩

end Sys2Proof.Machine
end

section
/-! The instructions and the privilege mode (60_exceptions.md R211): inverting PSR[15] commutes with every operation that an
instruction other than RTI makes. -/

namespace Sys2Proof.Machine

/-! ### The mode bit through the operations -/

theorem State.flipMode_eq_withCpu (s : State) :
    s.flipMode = s.withCpu s.regs s.pc (s.psr ^^^ 0x8000) s.savedSsp s.savedUsp := rfl

@[simp] theorem State.flipMode_reg (s : State) (r : Reg) : s.flipMode.reg r = s.reg r := rfl
@[simp] theorem State.flipMode_pcRelative9 (s : State) (off : Int) : s.flipMode.pcRelative9 off = s.pcRelative9 off := rfl
@[simp] theorem State.flipMode_baseOffset (s : State) (base : Reg) (off : Int) :
    s.flipMode.baseOffset base off = s.baseOffset base off := rfl

@[simp] theorem State.flipMode_readWord (s : State) (a : Word) : s.flipMode.readWord a = s.readWord a :=
  s.readWord_withCpu ..

@[simp] theorem State.flipMode_afterRead (s : State) (a : Word) : s.flipMode.afterRead a = (s.afterRead a).flipMode := by
  rw [s.flipMode_eq_withCpu, State.afterRead_withCpu, (s.afterRead a).flipMode_eq_withCpu]
  simp

@[simp] theorem State.flipMode_writeWord (s : State) (a v : Word) :
    s.flipMode.writeWord a v = (s.writeWord a v).flipMode := by
  rw [s.flipMode_eq_withCpu, State.writeWord_withCpu, (s.writeWord a v).flipMode_eq_withCpu]
  simp

/-- Bit 15 is not among the bits that a condition code is written to. -/
theorem flip_bit15_setCode (psr : Word) (c : ConditionCode) :
    ((psr ^^^ 0x8000) &&& 0xFFF8) ||| codeBits c = ((psr &&& 0xFFF8) ||| codeBits c) ^^^ 0x8000 := by
  apply BitVec.eq_of_getLsbD_eq
  intro i hi
  cases c <;> interval_cases i <;> simp [codeBits]

@[simp] theorem State.flipMode_setCode (s : State) (c : ConditionCode) :
    s.flipMode.setCode c = (s.setCode c).flipMode :=
  congrArg (fun psr => { s with psr := psr }) (flip_bit15_setCode s.psr c)

@[simp] theorem State.flipMode_writeResult (s : State) (dr : Reg) (v : Word) :
    s.flipMode.writeResult dr v = (s.writeResult dr v).flipMode :=
  (s.setReg dr v).flipMode_setCode (codeOf v)

@[simp] theorem State.flipMode_load (s : State) (dr : Reg) (ea : Word) :
    s.flipMode.load dr ea = (s.load dr ea).flipMode := by
  simp [State.load]

@[simp] theorem State.flipMode_taken (s : State) (n z p : Bool) : s.flipMode.taken n z p = s.taken n z p := by
  simp [State.taken, State.codeN, State.codeZ, State.codeP, State.flipMode]

@[simp] theorem State.flipMode_trapVectored (s : State) (vector : Nat) :
    s.flipMode.trapVectored vector = (s.trapVectored vector).flipMode := by
  have hlink : s.flipMode.setReg .r7 s.flipMode.pc = (s.setReg .r7 s.pc).flipMode := rfl
  rw [State.trapVectored, hlink, State.jumpThrough, State.flipMode_afterRead, State.flipMode_readWord]
  rfl

@[simp] theorem State.flipMode_afterService (s : State) : s.flipMode.afterService = s.afterService.flipMode :=
  congrArg (fun t : State => { t with freeIndex := s.freeIndex + 1 })
    ((s.setReg .r7 s.pc).flipMode_setCode (Config.serviceCode s.freeIndex))

@[simp] theorem State.flipMode_serviceOutput (s : State) : s.flipMode.serviceOutput = s.serviceOutput.flipMode :=
  congrArg (fun t : State => { t with output := s.output ++ [(s.reg .r0).setWidth 8] }) s.flipMode_afterService

@[simp] theorem State.flipMode_serviceInput (s : State) (c : Byte) (rest : List Byte) :
    s.flipMode.serviceInput c rest = (s.serviceInput c rest).flipMode :=
  congrArg (fun t : State => { t.setReg .r0 (c.setWidth 16) with input := rest, output := s.output ++ Config.inEcho c })
    s.flipMode_afterService

@[simp] theorem State.flipMode_serviceHalt (s : State) : s.flipMode.serviceHalt = s.serviceHalt.flipMode :=
  congrArg (fun t : State => { t with halted := true }) s.flipMode_afterService

/-! ### The instructions -/

theorem exec_trap_flipMode (vector : Nat) (s : State) :
    exec (.trap vector) s.flipMode = flipOutcome (exec (.trap vector) s) := by
  change execTrap vector s.flipMode = flipOutcome (execTrap vector s)
  have hplatform : s.flipMode.platform = s.platform := rfl
  have hinput : s.flipMode.input = s.input := rfl
  simp only [execTrap, hplatform, hinput]
  cases s.platform.trapModel with
  | vectored => exact congrArg Host.Outcome.next (s.flipMode_trapVectored vector)
  | hostService =>
    cases serviceOf vector with
    | none => exact congrArg Host.Outcome.next (s.flipMode_trapVectored vector)
    | some service =>
      cases service with
      | output => exact congrArg Host.Outcome.next s.flipMode_serviceOutput
      | halt => exact congrArg Host.Outcome.next s.flipMode_serviceHalt
      | input =>
        cases s.input with
        | nil => rfl
        | cons c rest => exact congrArg Host.Outcome.next (s.flipMode_serviceInput c rest)

/-- Executing in the other mode is executing, with the mode bit inverted afterwards. -/
theorem exec_flipMode {i : Instr} (hrti : i ≠ .rti) (hunused : ∀ b, i ≠ .unusedOpcode b) (s : State) :
    exec i s.flipMode = flipOutcome (exec i s) := by
  cases i with
  | rti => exact absurd rfl hrti
  | unusedOpcode anyBits => exact absurd rfl (hunused anyBits)
  | trap vector => exact exec_trap_flipMode vector s
  | br n z p off =>
    rw [exec_br, exec_br, State.flipMode_taken]
    rfl
  | jsr off | jsrr base | jmp base => rfl
  | addReg dr sr1 sr2 | addImm dr sr1 imm | andReg dr sr1 sr2 | andImm dr sr1 imm | not dr sr | lea dr off =>
    exact congrArg Host.Outcome.next (s.flipMode_writeResult dr _)
  | ld dr off | ldr dr base off => exact congrArg Host.Outcome.next (s.flipMode_load dr _)
  | st sr off | str sr base off => exact congrArg Host.Outcome.next (s.flipMode_writeWord _ _)
  | ldi dr off => simp [exec_ldi, flipOutcome]
  | sti sr off => simp [exec_sti, flipOutcome]

/-- Settles O22: no operation of the other instructions reads or writes PSR[15], and RTI tests it. -/
theorem onlyRtiDependsOnTheMode : Obligations.OnlyRtiDependsOnTheMode :=
  ⟨fun _ s hrti hunused => exec_flipMode hrti hunused s, fun _ => exec_rti_of_supervisorMode,
    fun _ => exec_rti_of_userMode⟩

end Sys2Proof.Machine
end

section
/-! The supervisor stack, the entry sequence and the return (60_exceptions.md R217, R219 to R224; 42_control.md R194): each
as memory accesses made in the state itself, with the processor's own registers written after them. -/

namespace Sys2Proof.Machine

/-! ### The supervisor stack -/

/-- What a push stored is what the pop at the same place answers. -/
theorem State.push_popValue {s : State} (h : deviceAt s.platform.deviceMap (s.reg .r6 - 1) = none) (v : Word) :
    (s.push v).popValue = v := by
  have hplain : deviceAt (s.push v).platform.deviceMap (s.reg .r6 - 1) = none := by rwa [State.push_platform]
  rw [State.popValue, State.push_reg, if_pos rfl, State.readWord_plain hplain, State.push_peek, if_pos ⟨h, rfl⟩]

/-- Settles O50: push and pop as one access each, with R6 lowered and raised. -/
theorem supervisorStackPushAndPop : Obligations.SupervisorStackPushAndPop := by
  intro s v
  refine ⟨?_, fun r hr => ?_, fun hplain => ⟨fun b => ?_, State.push_popValue hplain v⟩, rfl, ?_, fun r hr => ?_,
    s.afterPop_peek, fun r => ?_⟩
  · rw [State.push_reg, if_pos rfl]
  · rw [State.push_reg, if_neg hr]
  · simp only [State.push_peek, hplain, true_and]
  · rw [State.afterPop_reg, if_pos rfl]
  · rw [State.afterPop_reg, if_neg hr]
  · by_cases hr : r = .r6
    · subst hr
      simp
    · simp [hr]

/-! ### The processor's own registers, written once -/

theorem Regs.set_get_self (g : Regs) (r : Reg) : g.set r (g.get r) = g := by cases r <;> rfl

theorem Regs.set_set (g : Regs) (r : Reg) (u v : Word) : (g.set r u).set r v = g.set r v := by cases r <;> rfl

/-- A push made by a processor whose registers are given. -/
theorem State.withCpu_push (s : State) (g : Regs) (pc psr ssp usp v : Word) :
    (s.withCpu g pc psr ssp usp).push v =
      (s.writeWord (g.get .r6 - 1) v).withCpu (g.set .r6 (g.get .r6 - 1)) pc psr ssp usp := by
  rw [State.push_eq_writeWord, State.writeWord_withCpu]
  rfl

/-- A jump through a table entry made by a processor whose registers are given. -/
theorem State.withCpu_jumpThrough (s : State) (g : Regs) (pc psr ssp usp a : Word) :
    (s.withCpu g pc psr ssp usp).jumpThrough a = (s.afterRead a).withCpu g (s.readWord a) psr ssp usp := by
  rw [State.jumpThrough, State.afterRead_withCpu, State.readWord_withCpu]
  rfl

theorem State.withCpu_switchToUserStack (s : State) (g : Regs) (pc psr ssp usp : Word) :
    (s.withCpu g pc psr ssp usp).switchToUserStack = s.withCpu (g.set .r6 usp) pc psr (g.get .r6) usp := rfl

/-! ### The entry sequence (60_exceptions.md R219, R221) -/

/-- The stack pointer that an entry starts from: Saved_SSP when the interrupted program ran in User mode. -/
def State.entrySp (s : State) : Word := if s.userMode then s.savedSsp else s.reg .r6

/-- The state after the two pushes of an entry, as writes made in the state itself. -/
def State.afterPushes (s : State) (savedPc : Word) : State :=
  (s.writeWord (s.entrySp - 1) s.psr).writeWord (s.entrySp - 2) savedPc

/-- The stack on which an entry pushes: R6 is the entry's stack pointer, and from User mode the old R6 is kept. -/
theorem State.entryStack_eq_withCpu (s : State) :
    s.enterSupervisor.entryStack s.userMode =
      s.withCpu (s.regs.set .r6 s.entrySp) s.pc (s.psr &&& 0x7FFF) s.savedSsp
        (if s.userMode then s.reg .r6 else s.savedUsp) := by
  cases hu : s.userMode with
  | true =>
    rw [State.entrySp, hu]
    rfl
  | false =>
    have hself : s.regs.set .r6 (s.reg .r6) = s.regs := s.regs.set_get_self .r6
    rw [State.entrySp, hu, if_neg Bool.false_ne_true, if_neg Bool.false_ne_true, hself]
    rfl

/-- The entry sequence is two writes and a read, with the processor's registers written after them. -/
theorem State.enter_eq_accesses (s : State) (code : Byte) (savedPc : Word) :
    s.enter code savedPc =
      ((s.afterPushes savedPc).afterRead (excTableAddress code)).withCpu (s.regs.set .r6 (s.entrySp - 2))
        ((s.afterPushes savedPc).readWord (excTableAddress code)) (s.psr &&& 0x7FFF) s.savedSsp
        (if s.userMode then s.reg .r6 else s.savedUsp) := by
  have htwo : s.entrySp - 1 - 1 = s.entrySp - 2 := sub_sub s.entrySp 1 1
  rw [State.enter, State.entryStack_eq_withCpu, State.withCpu_push, State.withCpu_push, State.withCpu_jumpThrough]
  simp only [Regs.get_set, Regs.set_set, if_pos, htwo]
  rfl

theorem State.afterPushes_platform (s : State) (savedPc : Word) : (s.afterPushes savedPc).platform = s.platform := by
  rw [State.afterPushes, State.writeWord_platform, State.writeWord_platform]

/-- The two words that an entry pushes, and the locations it leaves alone. -/
theorem State.afterPushes_peek (s : State) (savedPc : Word) :
    (deviceAt s.platform.deviceMap (s.entrySp - 1) = none → (s.afterPushes savedPc).peek (s.entrySp - 1) = s.psr) ∧
    (deviceAt s.platform.deviceMap (s.entrySp - 2) = none → (s.afterPushes savedPc).peek (s.entrySp - 2) = savedPc) ∧
    ∀ a, a ≠ s.entrySp - 1 → a ≠ s.entrySp - 2 → (s.afterPushes savedPc).peek a = s.peek a := by
  have hne : s.entrySp - 1 ≠ s.entrySp - 2 := by bv_omega
  refine ⟨fun h => ?_, fun h => ?_, fun a h1 h2 => ?_⟩
  · rw [State.afterPushes, State.writeWord_peek, if_neg fun hsame => hne hsame.2, State.writeWord_peek, if_pos ⟨h, rfl⟩]
  · rw [State.afterPushes, State.writeWord_peek, State.writeWord_platform, if_pos ⟨h, rfl⟩]
  · rw [State.afterPushes, State.writeWord_peek, if_neg fun h => h2 h.2, State.writeWord_peek, if_neg fun h => h1 h.2]

theorem State.sameDevices_trans {s t u : State} (h : s.sameDevices t) (h' : t.sameDevices u) : s.sameDevices u := by
  obtain ⟨hinput, houtput, hkbsr, hkbdr, hdsr, hddr, hmcr, hfree⟩ := h
  obtain ⟨hinput', houtput', hkbsr', hkbdr', hdsr', hddr', hmcr', hfree'⟩ := h'
  exact ⟨hinput'.trans hinput, houtput'.trans houtput, hkbsr'.trans hkbsr, hkbdr'.trans hkbdr, hdsr'.trans hdsr,
    hddr'.trans hddr, hmcr'.trans hmcr, hfree'.trans hfree⟩

theorem State.writeWord_sameDevices_of_empty {s : State} (h : s.platform.deviceMap = .empty) (a v : Word) :
    s.sameDevices (s.writeWord a v) := by
  rw [State.writeWord_of_empty h]
  exact s.sameDevices_refl

theorem State.afterPushes_sameDevices_of_empty {s : State} (h : s.platform.deviceMap = .empty) (savedPc : Word) :
    s.sameDevices (s.afterPushes savedPc) :=
  State.sameDevices_trans (State.writeWord_sameDevices_of_empty h _ _)
    (State.writeWord_sameDevices_of_empty (by rwa [State.writeWord_platform]) _ _)

/-- The table of exceptions and interrupts is plain memory under either device map (60_exceptions.md R222). -/
theorem deviceAt_excTableAddress (code : Byte) (devices : DeviceMap) : deviceAt devices (excTableAddress code) = none := by
  have hcode : code.toNat < 256 := code.isLt
  refine deviceAt_low ?_ devices
  have hbase : Config.excVectorBase.toNat = 0x0100 := rfl
  rw [excTableAddress, BitVec.toNat_add, BitVec.toNat_setWidth, hbase]
  omega

/-- Settles O51: the two writes and the read of the entry, and what is written to the processor's registers. -/
theorem entrySequence : Obligations.EntrySequence := by
  intro s code savedPc
  obtain ⟨hpsr, hpc, hother⟩ := s.afterPushes_peek savedPc
  have hread : ReadFrame (s.afterPushes savedPc) ((s.afterPushes savedPc).afterRead (excTableAddress code)) :=
    (ReadFrame.refl _).afterRead _
  have hir : (s.afterPushes savedPc).ir = s.ir := by simp [State.afterPushes]
  have hhalted : (s.afterPushes savedPc).halted = s.halted := by simp [State.afterPushes]
  have htable := State.readWord_plain (s := s.afterPushes savedPc) (deviceAt_excTableAddress code _)
  rw [State.enter_eq_accesses]
  exact ⟨rfl, fun r => s.regs.get_set .r6 r _, rfl, rfl, fun h => (hread.peek _).trans (hpsr h),
    fun h => (hread.peek _).trans (hpc h), fun a h1 h2 => (hread.peek a).trans (hother a h1 h2),
    htable.trans (hread.peek _).symm, (State.afterRead_ir _ _).trans hir, (State.afterRead_halted _ _).trans hhalted,
    hread.platform.trans (s.afterPushes_platform savedPc), State.afterRead_mar _ _, State.afterRead_mdr _ _,
    State.sameDevices_refl _, fun hempty => State.sameDevices_trans (State.afterPushes_sameDevices_of_empty hempty savedPc)
      (hread.devices (by rwa [State.afterPushes_platform]))⟩

/-! ### The two exceptions (60_exceptions.md R212, R213, R215) -/

/-- An exception that is taken: the entry through its table entry, with one of the two PC values pushed. -/
theorem State.takeException_spec (s : State) (cause : ExceptionCause) :
    ∃ savedPc, s.entered (s.takeException cause) (excTableAddress (Config.excCode cause)) savedPc ∧
      (savedPc = s.pc - 1 ∨ savedPc = s.pc) ∧ (s.takeException cause).userMode = false :=
  ⟨s.exceptionPc cause, entrySequence s _ _, s.exceptionPc_cases cause, s.takeException_userMode cause⟩

/-- Settles O52: RTI in User mode raises, and the raise is the entry when its table entry has been written. -/
theorem rtiInUserModeTraps : Obligations.RtiInUserModeTraps := by
  intro s hu hready
  obtain ⟨savedPc, hspec⟩ := s.takeException_spec .privilegeModeViolation
  exact ⟨_, savedPc, (exec_rti_of_userMode hu).trans (State.raiseException_of_ready hready), hspec⟩

/-- Settles O53: as O52, for opcode 1101. -/
theorem unusedOpcodeTraps : Obligations.UnusedOpcodeTraps := by
  refine ⟨encodedAs_unusedOpcode, fun s hready => ?_⟩
  obtain ⟨savedPc, hspec⟩ := s.takeException_spec .illegalOpcode
  exact ⟨_, savedPc, fun anyBits => (exec_unusedOpcode anyBits s).trans (State.raiseException_of_ready hready), hspec⟩

/-! ### The keyboard interrupt (60_exceptions.md R217) -/

theorem step_of_interruptGranted {s : State} (hhalted : s.halted = false) (hclock : s.clockEnabled = true)
    (hint : s.interruptGranted = true) : step s = .next s.takeInterrupt := by
  simp only [step, hhalted, hclock, hint]
  rfl

/-- An interrupt writes bits 15 and 10:8 of the PSR. -/
theorem State.takeInterrupt_psr (s : State) : s.takeInterrupt.psr = (s.psr &&& 0x78FF) ||| 0x0400 := by
  rw [State.takeInterrupt, State.setPriority_psr, State.enter_psr, BitVec.and_assoc]
  rfl

theorem State.takeInterrupt_codes (s : State) :
    s.takeInterrupt.codeN = s.codeN ∧ s.takeInterrupt.codeZ = s.codeZ ∧ s.takeInterrupt.codeP = s.codeP := by
  simp [State.codeN, State.codeZ, State.codeP, State.takeInterrupt_psr]

/-- Settles O57: a granted interrupt is the entry sequence and then the write of the priority. -/
theorem keyboardInterruptIsTaken : Obligations.KeyboardInterruptIsTaken := by
  intro s hhalted hclock hsource hready henabled hpriority
  have hgranted : s.interruptGranted = true := s.interruptGranted_iff.2 ⟨hsource, hready, henabled, hpriority⟩
  exact ⟨_, s.takeInterrupt, entrySequence s Config.keyboardVector s.pc, step_of_interruptGranted hhalted hclock hgranted,
    rfl, s.takeInterrupt_psr, State.setPriority_priority _ _, s.takeInterrupt_userMode, s.takeInterrupt_codes⟩

/-! ### The return (42_control.md R194, 60_exceptions.md R221, R224) -/

/-- The PSR that a return pops. -/
def State.poppedPsr (s : State) : Word := (s.afterRead (s.reg .r6)).readWord (s.reg .r6 + 1)

theorem State.afterPop_popValue (s : State) : s.afterPop.popValue = s.poppedPsr := by
  rw [State.popValue, State.afterPop_reg, if_pos rfl, State.afterPop_eq_afterRead, State.readWord_withCpu]
  rfl

/-- Two pops are two reads, with R6 raised by two. -/
theorem State.afterPop_afterPop (s : State) :
    s.afterPop.afterPop =
      ((s.afterRead (s.reg .r6)).afterRead (s.reg .r6 + 1)).withCpu (s.regs.set .r6 (s.reg .r6 + 2)) s.pc s.psr s.savedSsp
        s.savedUsp := by
  have htwo : s.reg .r6 + 1 + 1 = s.reg .r6 + 2 := add_assoc (s.reg .r6) 1 1
  have hregs : s.afterPop.regs = s.regs.set .r6 (s.reg .r6 + 1) := by simp [State.afterPop]
  rw [State.afterPop_eq_afterRead s.afterPop, State.afterPop_reg, if_pos rfl, htwo, hregs, Regs.set_set,
    s.afterPop_eq_afterRead, State.afterRead_withCpu]
  rfl

/-- A return is two reads, with the processor's registers written after them. -/
theorem State.returnFromInterrupt_eq_accesses (s : State) :
    s.returnFromInterrupt =
      ((s.afterRead (s.reg .r6)).afterRead (s.reg .r6 + 1)).withCpu
        (s.regs.set .r6 (if s.poppedPsr.getLsbD 15 then s.savedUsp else s.reg .r6 + 2)) (s.readWord (s.reg .r6))
        s.poppedPsr (if s.poppedPsr.getLsbD 15 then s.reg .r6 + 2 else s.savedSsp) s.savedUsp := by
  have hpopped : { s.afterPop.afterPop with pc := s.popValue, psr := s.afterPop.popValue } =
      ((s.afterRead (s.reg .r6)).afterRead (s.reg .r6 + 1)).withCpu (s.regs.set .r6 (s.reg .r6 + 2))
        (s.readWord (s.reg .r6)) s.poppedPsr s.savedSsp s.savedUsp := by
    rw [s.afterPop_popValue, s.afterPop_afterPop]
    rfl
  have hcases := s.returnFromInterrupt_cases
  simp only [hpopped] at hcases
  rcases hcases with ⟨hu, h⟩ | ⟨hu, h⟩
  · have hbit : s.poppedPsr.getLsbD 15 = true := hu
    rw [h, hbit, State.withCpu_switchToUserStack, Regs.set_set, Regs.get_set, if_pos rfl]
    rfl
  · have hbit : s.poppedPsr.getLsbD 15 = false := hu
    rw [h, hbit]
    rfl

/-- Settles O55: the two reads of the return, and what is written to the processor's registers. -/
theorem rtiInSupervisorModeReturns : Obligations.RtiInSupervisorModeReturns := by
  refine ⟨encodedAs_rti, fun s hu => ⟨_, exec_rti_of_supervisorMode hu, ?_⟩⟩
  have hread : ReadFrame s ((s.afterRead (s.reg .r6)).afterRead (s.reg .r6 + 1)) :=
    ((ReadFrame.refl s).afterRead _).afterRead _
  obtain ⟨-, -, hir, hhalted, hplatform⟩ := hread.system
  rw [State.returnFromInterrupt_eq_accesses]
  refine ⟨rfl, rfl, fun r => s.regs.get_set .r6 r _, rfl, rfl, hread.peek, hir, hhalted, hplatform, hread.output,
    State.sameDevices_refl _, fun hempty => ⟨State.readWord_of_empty hempty _, ?_, hread.devices hempty⟩⟩
  exact (State.readWord_of_empty (by rwa [State.afterRead_platform]) _).trans (s.afterRead_peek _ _)

/-- Settles O56: the return reads back the two words that the entry pushed, from the stack pointer that it left. -/
theorem rtiUndoesTheEntry : Obligations.RtiUndoesTheEntry := by
  intro s code savedPc hempty
  obtain ⟨-, hregs, husp, hssp, hpsrWord, hpcWord, -, -, -, -, hplatform, -⟩ := entrySequence s code savedPc
  obtain ⟨t, hexec, -, -, hregs', hssp', husp', -, -, -, -, -, -, hplain⟩ :=
    rtiInSupervisorModeReturns.2 (s.enter code savedPc) (s.enter_userMode code savedPc)
  obtain ⟨hpc, hpsr, -⟩ := hplain (by rwa [hplatform])
  have hdevice (a : Word) : deviceAt s.platform.deviceMap a = none := by rw [hempty, deviceAt_empty]
  have hsp : (s.enter code savedPc).reg .r6 = s.entrySp - 2 := hregs .r6
  have hnext : s.entrySp - 2 + 1 = s.entrySp - 1 := by bv_omega
  have hpsr' : t.psr = s.psr := by
    rw [hpsr, hsp, hnext]
    exact hpsrWord (hdevice _)
  have hmode : t.userMode = s.userMode := State.userMode_of_psr hpsr'
  have hback : (s.enter code savedPc).reg .r6 + 2 = s.entrySp := by rw [hsp, BitVec.sub_add_cancel]
  refine ⟨t, hexec, ?_, hpsr', fun r => ?_, ?_, husp'.trans husp⟩
  · rw [hpc, hsp]
    exact hpcWord (hdevice _)
  · rw [hregs' r, hmode, hback, husp]
    by_cases hr : r = .r6
    · subst hr
      cases hu : s.userMode <;> simp [State.entrySp, hu]
    · rw [if_neg hr, hregs r, if_neg hr]
  · rw [hssp', hmode, hback, hssp]
    cases hu : s.userMode <;> simp [State.entrySp, hu]

end Sys2Proof.Machine
end

section
/-! The customary device registers (20_memory.md R78): what the keyboard and the display do before an access, and what the
access of each register does. -/

namespace Sys2Proof.Machine

/-! ### The keyboard and the display -/

/-- Setting the ready bit of a status register sets bit 15 and no other. -/
theorem getLsbD_or_ready (w : Word) (i : Nat) : (w ||| 0x8000).getLsbD i = (w.getLsbD i || decide (i = 15)) := by
  have hpow : (0x8000 : Word) = BitVec.twoPow 16 15 := by decide
  rw [BitVec.getLsbD_or, hpow, BitVec.getLsbD_twoPow]
  simp only [Nat.reduceLT, decide_true, Bool.true_and, eq_comm]

/-- The keyboard presents the next character only while none is waiting; when it does is free (log 19). -/
def State.presents (s : State) : Bool := !s.kbsr.getLsbD 15 && Config.keyboardDelivers s.freeIndex

theorem State.keyboardEvent_of_input {s : State} {c : Byte} {rest : List Byte} (h : s.input = c :: rest) :
    s.keyboardEvent =
      if s.presents then { s with kbdr := c.setWidth 16, kbsr := s.kbsr ||| 0x8000, input := rest } else s := by
  unfold State.keyboardEvent State.presents
  rw [h]

/-- What the keyboard leaves when there is input. -/
theorem State.keyboardEvent_spec {s : State} {c : Byte} {rest : List Byte} (h : s.input = c :: rest) :
    s.keyboardEvent.kbdr = (if s.presents then c.setWidth 16 else s.kbdr) ∧
      s.keyboardEvent.kbsr.getLsbD 15 = (s.presents || s.kbsr.getLsbD 15) ∧
      s.keyboardEvent.input = (if s.presents then rest else c :: rest) := by
  rw [State.keyboardEvent_of_input h]
  cases s.presents with
  | true => exact ⟨rfl, (getLsbD_or_ready s.kbsr 15).trans (Bool.or_true _), rfl⟩
  | false => exact ⟨rfl, (Bool.false_or _).symm, h⟩

/-- A waiting character keeps the keyboard from acting. -/
theorem State.keyboardEvent_of_waiting {s : State} (h : s.kbsr.getLsbD 15 = true) : s.keyboardEvent = s := by
  cases hi : s.input with
  | nil => simp only [State.keyboardEvent, hi]
  | cons c rest => rw [State.keyboardEvent_of_input hi, State.presents, h, Bool.not_true, Bool.false_and,
      if_neg Bool.false_ne_true]

@[simp] theorem State.keyboardEvent_dsr (s : State) : s.keyboardEvent.dsr = s.dsr := by
  unfold State.keyboardEvent; repeat' split
  all_goals rfl
@[simp] theorem State.keyboardEvent_freeIndex (s : State) : s.keyboardEvent.freeIndex = s.freeIndex := by
  unfold State.keyboardEvent; repeat' split
  all_goals rfl
@[simp] theorem State.displayEvent_kbsr (s : State) : s.displayEvent.kbsr = s.kbsr := by
  unfold State.displayEvent; split <;> rfl
@[simp] theorem State.displayEvent_kbdr (s : State) : s.displayEvent.kbdr = s.kbdr := by
  unfold State.displayEvent; split <;> rfl

/-- The display's event looks at DSR and at the free draw alone. -/
theorem State.displayEvent_dsr (s : State) :
    s.displayEvent.dsr =
      if !s.dsr.getLsbD 15 && Config.displayRecovers s.freeIndex then s.dsr ||| 0x8000 else s.dsr := by
  unfold State.displayEvent; split <;> rfl

/-- The display may become ready, and does nothing else to DSR. -/
theorem State.displayEvent_dsr_bit (s : State) (i : Nat) :
    s.displayEvent.dsr.getLsbD i =
      (s.dsr.getLsbD i || (decide (i = 15) && Config.displayRecovers s.freeIndex)) := by
  rw [State.displayEvent_dsr]
  by_cases hi : i = 15
  · subst hi
    cases hready : s.dsr.getLsbD 15 <;> cases Config.displayRecovers s.freeIndex <;>
      simp only [hready, getLsbD_or_ready, Bool.not_true, Bool.not_false, Bool.and_true, Bool.and_false,
        Bool.false_eq_true, if_true, if_false, decide_true, Bool.or_true, Bool.or_false]
  · split <;> simp only [getLsbD_or_ready, hi, decide_false, Bool.false_and, Bool.or_false]

section
variable {s : State} (hmap : s.platform.deviceMap = .customary)
include hmap

theorem State.deviceTick_of_customary :
    s.deviceTick = { s.keyboardEvent.displayEvent with freeIndex := s.freeIndex + 1 } := by
  simp only [State.deviceTick, hmap]

theorem State.deviceTick_kbsr_of_customary : s.deviceTick.kbsr = s.keyboardEvent.kbsr := by
  rw [State.deviceTick_of_customary hmap, State.displayEvent_kbsr]

theorem State.deviceTick_kbdr_of_customary : s.deviceTick.kbdr = s.keyboardEvent.kbdr := by
  rw [State.deviceTick_of_customary hmap, State.displayEvent_kbdr]

theorem State.deviceTick_dsr_of_customary : s.deviceTick.dsr = s.displayEvent.dsr := by
  rw [State.deviceTick_of_customary hmap, State.displayEvent_dsr, State.displayEvent_dsr, State.keyboardEvent_dsr,
    State.keyboardEvent_freeIndex]
end

/-! ### The access of a register -/

section
variable {s : State} {a : Word} {d : DeviceReg} (h : deviceAt s.platform.deviceMap a = some d)
include h

theorem State.readWord_device : s.readWord a = s.deviceTick.deviceValue d := by
  simp only [State.readWord, h]

theorem State.afterRead_device :
    s.afterRead a = { s.deviceTick.deviceReadEffect d with mar := a, mdr := s.readWord a } := by
  simp only [State.afterRead, h]

theorem State.writeWord_device (v : Word) :
    s.writeWord a v = { s.deviceTick.deviceWrite v d with mar := a, mdr := v } := by
  simp only [State.writeWord, h]

end

/-- A write of a status register sets its bit 14 and leaves bit 15 to the device. -/
theorem statusWrite_bits (status v : Word) :
    ((status &&& 0xBFFF) ||| (v &&& 0x4000)).getLsbD 14 = v.getLsbD 14 ∧
      ((status &&& 0xBFFF) ||| (v &&& 0x4000)).getLsbD 15 = status.getLsbD 15 := by
  simp

/-- Clearing MCR[15] stops the clock. -/
theorem step_of_clockStopped {s : State} (hhalted : s.halted = false) (hclock : s.clockEnabled = false) :
    step s = .fault .clockStopped := by
  simp only [step, hhalted, hclock]
  rfl

/-- Settles O60: each register's access is its own effect, made after what the devices do before the access. -/
theorem customaryDeviceRegisters : Obligations.CustomaryDeviceRegisters := by
  intro s hmap hinv
  have hkbsr : deviceAt s.platform.deviceMap 0xFE00 = some .kbsr := by rw [hmap]; rfl
  have hkbdr : deviceAt s.platform.deviceMap 0xFE02 = some .kbdr := by rw [hmap]; rfl
  have hdsr : deviceAt s.platform.deviceMap 0xFE04 = some .dsr := by rw [hmap]; rfl
  have hddr : deviceAt s.platform.deviceMap 0xFE06 = some .ddr := by rw [hmap]; rfl
  have hmcr : deviceAt s.platform.deviceMap 0xFFFE = some .mcr := by rw [hmap]; rfl
  have htickKbsr : s.deviceTick.kbsr = s.keyboardEvent.kbsr := State.deviceTick_kbsr_of_customary hmap
  have htickKbdr : s.deviceTick.kbdr = s.keyboardEvent.kbdr := State.deviceTick_kbdr_of_customary hmap
  have htickDsr : s.deviceTick.dsr = s.displayEvent.dsr := State.deviceTick_dsr_of_customary hmap
  have hreadKbdr : s.readWord 0xFE02 = s.deviceTick.kbdr := State.readWord_device hkbdr
  refine ⟨fun c rest hi => ?_, ⟨?_, fun i hi => ?_, (State.readWord_device hdsr).trans htickDsr,
      (State.readWord_device hkbsr).trans htickKbsr⟩,
    ⟨hreadKbdr.trans htickKbdr, fun hready => ?_, hreadKbdr ▸ State.deviceTick_kbdr hinv.2, ?_⟩,
    fun v => ⟨?_, ?_, ?_⟩, fun v hhalted hv => ?_, fun v => ⟨?_, ?_, ?_, ?_⟩⟩
  · exact State.keyboardEvent_spec hi
  · rw [State.displayEvent_dsr_bit, decide_eq_true rfl, Bool.true_and]
  · rw [State.displayEvent_dsr_bit, decide_eq_false hi, Bool.false_and, Bool.or_false]
  · rw [hreadKbdr, htickKbdr, State.keyboardEvent_of_waiting hready]
  · rw [State.afterRead_device hkbdr]
    simp [State.deviceReadEffect]
  · rw [State.writeWord_device hddr]
    simp [State.deviceWrite, BitVec.setWidth_eq_extractLsb']
  · rw [State.writeWord_device hddr]
    simp [State.deviceWrite]
  · exact State.peek_of_mem (by rw [State.writeWord_mem, hddr, if_neg nofun])
  · refine step_of_clockStopped ((s.writeWord_halted _ v).trans hhalted) ?_
    rw [State.writeWord_device hmcr]
    simpa [State.clockEnabled, State.deviceWrite, hmap] using hv
  · rw [State.writeWord_device hkbsr]
    exact (statusWrite_bits _ v).1
  · rw [State.writeWord_device hkbsr, ← htickKbsr]
    exact (statusWrite_bits _ v).2
  · rw [State.writeWord_device hdsr]
    exact (statusWrite_bits _ v).1
  · rw [State.writeWord_device hdsr, ← htickDsr]
    exact (statusWrite_bits _ v).2

end Sys2Proof.Machine
end
